-- ==== Sys2Proof/Word.lean ====
section
/-! DEFINITION. Word.lean: the widths the spec names data by, and nothing else. -/

namespace Sys2Proof

/-- A byte of memory (R10). -/
abbrev Byte := BitVec 8
/-- A 64-bit scalar, bypass or system register (R35). -/
abbrev Word := BitVec 64
/-- A binary32 or INT32 lane, a norm (R62, R68). -/
abbrev Word32 := BitVec 32
/-- One row of an accumulator tile, or the 128 lanes of a direction (R139, R67). -/
abbrev Row := BitVec 2048
/-- A tensor handle (R123). -/
abbrev HandleBits := BitVec 256
/-- One instruction slot (R28). -/
abbrev SlotWord := BitVec 64
/-- One bundle of eight slots (R26). -/
abbrev BundleWord := BitVec 512

end Sys2Proof
end

