-- ==== Sys2Proof/Config.lean ====
section
/-! DEFINITION. Config.lean: what the spec leaves open, as constants without a body. Nothing can be proved of their
values, so a claim that holds holds for every value. -/

namespace Sys2Proof.Config

/-- How far SIN's result lies from the correctly rounded one, as a function of the input bits alone (R166: within
2 ulp, a given input always gives the same bits). Used modulo 5, less 2. DESIGN CHOICE (notes/assumptions/10.md). -/
opaque sinUlp : Word32 → Nat
/-- The same for COS. -/
opaque cosUlp : Word32 → Nat
/-- RSA-3072 RSASSA-PSS signature of the attestation report by the module's key (R430): 384 bytes, as a number. -/
opaque rsaSign : List Byte → BitVec 3072
/-- SLH-DSA-SHA2-256s signature of the attestation report (R430, R431): 29,792 bytes, as a number. -/
opaque slhSign : List Byte → BitVec 238336
/-- The boot ROM's bytes, which MROM measures (R431). -/
opaque bootRom : List Byte
/-- The firmware image in flash, which MFW measures (R431), the security version it carries, and the public keys it is signed with
(R429; notes/assumptions/74.md). -/
opaque firmware : List Byte
opaque firmwareVersion : Nat
opaque rsaKey : List Byte
opaque slhKey : List Byte
/-- The hashes of the two public keys in the fuses (R429). -/
opaque rsaKeyHash : BitVec 384
opaque slhKeyHash : BitVec 384
/-- Does the image's RSASSA-PSS signature, and its SLH-DSA signature, verify under a key over a digest (R429)? -/
opaque rsaVerifies : List Byte → BitVec 384 → Bool
opaque slhVerifies : List Byte → BitVec 384 → Bool
/-- The module identity in the fuses (R431, MODID). -/
opaque moduleId : BitVec 128
/-- The fused security version (R429, R431). -/
opaque securityVersion : BitVec 16
/-- How the replay store lays out what it holds, and how many records each of its logs has room for, by the store's length and the
log (R416, R417): the spec gives neither (notes/assumptions/99.md). -/
opaque replayBytes : List Nat → List Byte
opaque logRoom : Nat → Nat → Nat
/-- How many members a Weave group domain has on other modules (R368): the spec does not describe a group launch. -/
opaque remoteMembers : Nat → Nat
/-- The byte a grouped operand's scale or zero point has where R192's offset lies past the core scratchpad, by offset: the
spec states no value there (notes/assumptions/12.md). -/
opaque scaleBeyond : Nat → Byte
/-- The cause a TFAULT record gives when an invalidate made the writer leave its page: the spec states none (R415,
notes/assumptions/33.md). -/
opaque traceInvalCause : Nat
/-- The handle declarations of an image, by IMG and handle number (R122): the spec does not say where hardware finds them
(notes/assumptions/13.md). -/
opaque imageHandle : BitVec 32 → Nat → BitVec 256
/-- PC and SCYC in the failure record of an entry overlay's load, which no bundle issued (R280, R362,
notes/assumptions/14.md), by linear index. -/
opaque walkerPc : Nat → Nat
opaque walkerScyc : Nat → Nat

end Sys2Proof.Config
end

