-- ==== Sys2Proof/Syntax.lean ====
section
/-! DEFINITION. Syntax.lean: the ports a slot names (R35), its modifiers, and one constructor of Instr for each row of
the opcode table. The first 187 rows are slot instructions, whose fields are named as in R28 and R37 (u the scalar ALU of
slots 0 and 1, g the guard, e the ephemeral bit, d, a, b, c, f the port fields); the rest are the table's events, whose
arguments say where they happen (c a module core, p a partition, h a handle, q a host queue, n an index into a list the
state holds). -/

namespace Sys2Proof

/-- The port space (R35). A register-file port carries its number. -/
inductive Port where
  | s (n : Fin 64) | h (n : Fin 32) | byp (u : Fin 10) | p (n : Fin 8) | l (n : Fin 6) | lc | z
  | tile (n : Fin 8) | d (n : Fin 16) | nrm (j : Fin 16) | b (n : Fin 16) | k (n : Fin 32) | sys (n : Fin 32)
  | reserved (c : Fin 14)
deriving DecidableEq, Repr

/-- The number of a port (R35). The reserved ports are 0x6A to 0x6F and 0x88 to 0x8F. -/
def Port.toNat : Port → Nat
  | .s n => n.val | .h n => 0x40 + n.val | .byp u => 0x60 + u.val | .p n => 0x70 + n.val | .l n => 0x78 + n.val
  | .lc => 0x7E | .z => 0x7F | .tile n => 0x80 + n.val | .d n => 0x90 + n.val | .nrm j => 0xA0 + j.val
  | .b n => 0xB0 + n.val | .k n => 0xC0 + n.val | .sys n => 0xE0 + n.val
  | .reserved c => if c.val < 6 then 0x6A + c.val else 0x82 + c.val

/-- The eight bits that name a port. -/
def Port.toByte (p : Port) : Byte := BitVec.ofNat 8 p.toNat

/-- A guard (R30): predicate `p`, negated when `neg`. -/
structure Guard where
  neg : Bool
  p   : Fin 8
deriving DecidableEq, Repr

/-- An unguarded slot carries p0 (R30). -/
def Guard.always : Guard := ⟨false, 0⟩

/-- The guard field G (R30). -/
def Guard.code (g : Guard) : BitVec 4 := BitVec.ofNat 4 ((if g.neg then 8 else 0) + g.p.val)

/-- The two scalar ALUs, in slot positions 0 and 1 (R26). -/
inductive Alu where
  | sa0 | sa1
deriving DecidableEq, Repr

/-- The units of R26, in bypass-port order, then br. -/
inductive Unit' where
  | sa0 | sa1 | ag | va | dv | sf | mx | tm | ce | sy | br
deriving DecidableEq, Repr

/-- The number of a unit in bypass-port order; br is 10 (R389). -/
def Unit'.num : Unit' → Nat
  | .sa0 => 0 | .sa1 => 1 | .ag => 2 | .va => 3 | .dv => 4 | .sf => 5 | .mx => 6 | .tm => 7 | .ce => 8 | .sy => 9 | .br => 10

def Alu.unit : Alu → Unit'
  | .sa0 => .sa0 | .sa1 => .sa1

def Alu.pos : Alu → Nat
  | .sa0 => 0 | .sa1 => 1

/-- A rectangle of cores given by a die and its origin there (R358, R359). -/
structure Rect where
  die : Nat
  row : Nat
  col : Nat
deriving DecidableEq, Repr

/-- Where an uncorrectable error is detected (R400). -/
inductive ErrLoc where
  /-- a register file, tile, array cell, the reel, or a scratchpad line read by the core's own units -/
  | core
  /-- the instruction store, overlay slot `o` -/
  | istore (o : Nat)
  /-- the shadow store of the open checkpoint -/
  | shadow
  /-- data that the oldest transfer of ag's queue reads, `ofs` bytes into the item in element order (R243) -/
  | agItem (ofs : Nat)
  /-- a page table that the oldest started transfer of ag's queue, command of the copy engine, or stash traffic reads `ofs` bytes into
  its item (R243, R246) -/
  | agTable (ofs : Nat)
  | ceTable (ofs : Nat)
  | stashTable (ofs : Nat)
  /-- data that the oldest MUNST reads -/
  | stashItem (ofs : Nat)
  /-- a page table that the oldest queued ATOM, the trace unit or the save engine reads (R246) -/
  | atomTable
  | traceTable
  | saveTable
  /-- data of the spill region that FILL, FILLSP or SWIN reads -/
  | saveItem
  /-- data that the oldest command taken by the copy engine reads -/
  | ceItem (ofs : Nat)
  /-- the entry overlay that the next step of partition `p`'s task `h` loads on the core, or a page table on the way to it, `ofs` bytes in
  (R362) -/
  | entryItem (p h ofs : Nat)
  | entryTable (p h ofs : Nat)
  /-- data that request `r` of cellar `n` reads -/
  | cellarItem (n r : Nat)
  /-- the block that the oldest posting of partition `p`'s launch intake reads (R400), or a page table on the way to it (R246) -/
  | arming (p : Nat)
  | armingTable (p : Nat)
deriving DecidableEq, Repr

/-- The outcome of one start stage on one unit, as the hardware finds it (R427, R428). -/
structure StageRec where
  stage : Nat
  unit  : Nat
  ok    : Bool
deriving DecidableEq, Repr

/-- Rounding codes (R39). -/
inductive Rnd where
  | rne | rtz | rup | rdn | sr
deriving DecidableEq, Repr

/-- The code of each Rnd. -/
def Rnd.code : Rnd → BitVec 3
  | .rne => 0#3
  | .rtz => 1#3
  | .rup => 2#3
  | .rdn => 3#3
  | .sr => 4#3

/-- The Rnd a code names; none for a code the spec reserves. -/
def Rnd.ofCode (x : BitVec 3) : Option Rnd :=
  match x.toNat with
  | 0 => some .rne
  | 1 => some .rtz
  | 2 => some .rup
  | 3 => some .rdn
  | 4 => some .sr
  | _ => none

/-- Stands in while decoding an illegal code; the decoder answers with the error, never with this. -/
def Rnd.first : Rnd := .rne

/-- Element formats (R61). -/
inductive Fmt where
  | f32 | f64 | f16 | bf16 | e4m3 | e5m2 | i32 | i8 | i4 | g8 | g4 | q214 | lnorm
deriving DecidableEq, Repr

/-- The code of each Fmt. -/
def Fmt.code : Fmt → BitVec 4
  | .f32 => 0#4
  | .f64 => 1#4
  | .f16 => 2#4
  | .bf16 => 3#4
  | .e4m3 => 4#4
  | .e5m2 => 5#4
  | .i32 => 6#4
  | .i8 => 7#4
  | .i4 => 8#4
  | .g8 => 9#4
  | .g4 => 10#4
  | .q214 => 11#4
  | .lnorm => 12#4

/-- The Fmt a code names; none for a code the spec reserves. -/
def Fmt.ofCode (x : BitVec 4) : Option Fmt :=
  match x.toNat with
  | 0 => some .f32
  | 1 => some .f64
  | 2 => some .f16
  | 3 => some .bf16
  | 4 => some .e4m3
  | 5 => some .e5m2
  | 6 => some .i32
  | 7 => some .i8
  | 8 => some .i4
  | 9 => some .g8
  | 10 => some .g4
  | 11 => some .q214
  | 12 => some .lnorm
  | _ => none

/-- Stands in while decoding an illegal code; the decoder answers with the error, never with this. -/
def Fmt.first : Fmt := .f32

/-- The two formats of the scalar floating-point instructions (R61, R134). -/
inductive SD where
  | s | d
deriving DecidableEq, Repr

/-- The code of each SD. -/
def SD.code : SD → BitVec 4
  | .s => 0#4
  | .d => 1#4

/-- The SD a code names; none for a code the spec reserves. -/
def SD.ofCode (x : BitVec 4) : Option SD :=
  match x.toNat with
  | 0 => some .s
  | 1 => some .d
  | _ => none

/-- Stands in while decoding an illegal code; the decoder answers with the error, never with this. -/
def SD.first : SD := .s

/-- Conditions of CMP (R131). -/
inductive CmpCond where
  | eq | ne | lt | ge | ltu | geu | gt | le | gtu | leu
deriving DecidableEq, Repr

/-- The code of each CmpCond. -/
def CmpCond.code : CmpCond → BitVec 4
  | .eq => 0#4
  | .ne => 1#4
  | .lt => 2#4
  | .ge => 3#4
  | .ltu => 4#4
  | .geu => 5#4
  | .gt => 6#4
  | .le => 7#4
  | .gtu => 8#4
  | .leu => 9#4

/-- The CmpCond a code names; none for a code the spec reserves. -/
def CmpCond.ofCode (x : BitVec 4) : Option CmpCond :=
  match x.toNat with
  | 0 => some .eq
  | 1 => some .ne
  | 2 => some .lt
  | 3 => some .ge
  | 4 => some .ltu
  | 5 => some .geu
  | 6 => some .gt
  | 7 => some .le
  | 8 => some .gtu
  | 9 => some .leu
  | _ => none

/-- Stands in while decoding an illegal code; the decoder answers with the error, never with this. -/
def CmpCond.first : CmpCond := .eq

/-- Conditions of FCMP and DCMP (R134, R186). -/
inductive FCond where
  | eq | ne | lt | le | gt | ge | un | ord
deriving DecidableEq, Repr

/-- The code of each FCond. -/
def FCond.code : FCond → BitVec 4
  | .eq => 0#4
  | .ne => 1#4
  | .lt => 2#4
  | .le => 3#4
  | .gt => 4#4
  | .ge => 5#4
  | .un => 6#4
  | .ord => 7#4

/-- The FCond a code names; none for a code the spec reserves. -/
def FCond.ofCode (x : BitVec 4) : Option FCond :=
  match x.toNat with
  | 0 => some .eq
  | 1 => some .ne
  | 2 => some .lt
  | 3 => some .le
  | 4 => some .gt
  | 5 => some .ge
  | 6 => some .un
  | 7 => some .ord
  | _ => none

/-- Stands in while decoding an illegal code; the decoder answers with the error, never with this. -/
def FCond.first : FCond := .eq

/-- Conditions of VCMP (R152). -/
inductive VCond where
  | eq | ne | lt | le | gt | ge | un | ord | ltu | leu | gtu | geu
deriving DecidableEq, Repr

/-- The code of each VCond. -/
def VCond.code : VCond → BitVec 4
  | .eq => 0#4
  | .ne => 1#4
  | .lt => 2#4
  | .le => 3#4
  | .gt => 4#4
  | .ge => 5#4
  | .un => 6#4
  | .ord => 7#4
  | .ltu => 8#4
  | .leu => 9#4
  | .gtu => 10#4
  | .geu => 11#4

/-- The VCond a code names; none for a code the spec reserves. -/
def VCond.ofCode (x : BitVec 4) : Option VCond :=
  match x.toNat with
  | 0 => some .eq
  | 1 => some .ne
  | 2 => some .lt
  | 3 => some .le
  | 4 => some .gt
  | 5 => some .ge
  | 6 => some .un
  | 7 => some .ord
  | 8 => some .ltu
  | 9 => some .leu
  | 10 => some .gtu
  | 11 => some .geu
  | _ => none

/-- Stands in while decoding an illegal code; the decoder answers with the error, never with this. -/
def VCond.first : VCond := .eq

/-- Conditions of BRC (R103). -/
inductive BrCond where
  | eqz | nez | ltz | gez | lez | gtz
deriving DecidableEq, Repr

/-- The code of each BrCond. -/
def BrCond.code : BrCond → BitVec 3
  | .eqz => 0#3
  | .nez => 1#3
  | .ltz => 2#3
  | .gez => 3#3
  | .lez => 4#3
  | .gtz => 5#3

/-- The BrCond a code names; none for a code the spec reserves. -/
def BrCond.ofCode (x : BitVec 3) : Option BrCond :=
  match x.toNat with
  | 0 => some .eqz
  | 1 => some .nez
  | 2 => some .ltz
  | 3 => some .gez
  | 4 => some .lez
  | 5 => some .gtz
  | _ => none

/-- Stands in while decoding an illegal code; the decoder answers with the error, never with this. -/
def BrCond.first : BrCond := .eqz

/-- Scopes (R40), from the narrowest. -/
inductive Scope where
  | core | cluster | die | module | system
deriving DecidableEq, Repr

/-- The code of each Scope. -/
def Scope.code : Scope → BitVec 3
  | .core => 0#3
  | .cluster => 1#3
  | .die => 2#3
  | .module => 3#3
  | .system => 4#3

/-- The Scope a code names; none for a code the spec reserves. -/
def Scope.ofCode (x : BitVec 3) : Option Scope :=
  match x.toNat with
  | 0 => some .core
  | 1 => some .cluster
  | 2 => some .die
  | 3 => some .module
  | 4 => some .system
  | _ => none

/-- Stands in while decoding an illegal code; the decoder answers with the error, never with this. -/
def Scope.first : Scope := .core

/-- Memory levels (R123, R258). -/
inductive Lvl where
  | core | cluster | die | hbm
deriving DecidableEq, Repr

/-- The code of each Lvl. -/
def Lvl.code : Lvl → BitVec 2
  | .core => 0#2
  | .cluster => 1#2
  | .die => 2#2
  | .hbm => 3#2

/-- The Lvl a code names; none for a code the spec reserves. -/
def Lvl.ofCode (x : BitVec 2) : Option Lvl :=
  match x.toNat with
  | 0 => some .core
  | 1 => some .cluster
  | 2 => some .die
  | _ => some .hbm

/-- Stands in while decoding an illegal code; the decoder answers with the error, never with this. -/
def Lvl.first : Lvl := .core

/-- Combining operations of VMRED and VMSCAN (R162). -/
inductive RedOp where
  | add | min | max
deriving DecidableEq, Repr

/-- The code of each RedOp. -/
def RedOp.code : RedOp → BitVec 4
  | .add => 0#4
  | .min => 1#4
  | .max => 2#4

/-- The RedOp a code names; none for a code the spec reserves. -/
def RedOp.ofCode (x : BitVec 4) : Option RedOp :=
  match x.toNat with
  | 0 => some .add
  | 1 => some .min
  | 2 => some .max
  | _ => none

/-- Stands in while decoding an illegal code; the decoder answers with the error, never with this. -/
def RedOp.first : RedOp := .add

/-- Row selections of RCMP (R302). -/
inductive RowSel where
  | live | recurse | cont
deriving DecidableEq, Repr

/-- The code of each RowSel. -/
def RowSel.code : RowSel → BitVec 2
  | .live => 0#2
  | .recurse => 1#2
  | .cont => 2#2

/-- The RowSel a code names; none for a code the spec reserves. -/
def RowSel.ofCode (x : BitVec 2) : Option RowSel :=
  match x.toNat with
  | 0 => some .live
  | 1 => some .recurse
  | 2 => some .cont
  | _ => none

/-- Stands in while decoding an illegal code; the decoder answers with the error, never with this. -/
def RowSel.first : RowSel := .live

inductive Instr where
  | add (u : Alu) (g : Guard) (e : Bool) (d a b : Port)
  | addi (u : Alu) (g : Guard) (d a : Port) (imm : BitVec 27)
  | sub (u : Alu) (g : Guard) (e : Bool) (d a b : Port)
  | mul (u : Alu) (g : Guard) (e : Bool) (d a b : Port)
  | mulh (u : Alu) (g : Guard) (e : Bool) (d a b : Port)
  | mulhu (u : Alu) (g : Guard) (e : Bool) (d a b : Port)
  | div (u : Alu) (g : Guard) (e : Bool) (d a b : Port)
  | divu (u : Alu) (g : Guard) (e : Bool) (d a b : Port)
  | rem (u : Alu) (g : Guard) (e : Bool) (d a b : Port)
  | remu (u : Alu) (g : Guard) (e : Bool) (d a b : Port)
  | and (u : Alu) (g : Guard) (e : Bool) (d a b : Port)
  | andn (u : Alu) (g : Guard) (e : Bool) (d a b : Port)
  | or (u : Alu) (g : Guard) (e : Bool) (d a b : Port)
  | xor (u : Alu) (g : Guard) (e : Bool) (d a b : Port)
  | shl (u : Alu) (g : Guard) (e : Bool) (d a b : Port)
  | shr (u : Alu) (g : Guard) (e : Bool) (d a b : Port)
  | sar (u : Alu) (g : Guard) (e : Bool) (d a b : Port)
  | rol (u : Alu) (g : Guard) (e : Bool) (d a b : Port)
  | min (u : Alu) (g : Guard) (e : Bool) (d a b : Port)
  | max (u : Alu) (g : Guard) (e : Bool) (d a b : Port)
  | minu (u : Alu) (g : Guard) (e : Bool) (d a b : Port)
  | maxu (u : Alu) (g : Guard) (e : Bool) (d a b : Port)
  | clz (u : Alu) (g : Guard) (e : Bool) (d a : Port)
  | ctz (u : Alu) (g : Guard) (e : Bool) (d a : Port)
  | popc (u : Alu) (g : Guard) (e : Bool) (d a : Port)
  | brev (u : Alu) (g : Guard) (e : Bool) (d a : Port)
  | mov (u : Alu) (g : Guard) (e : Bool) (d a : Port)
  | ext (u : Alu) (g : Guard) (e : Bool) (d a : Port) (sx : Bool) (bpos len1 : BitVec 6)
  | ins (u : Alu) (g : Guard) (e : Bool) (d a b : Port) (bpos len1 : BitVec 6)
  | sel (u : Alu) (g : Guard) (e : Bool) (d a b c : Port)
  | cmp (u : Alu) (g : Guard) (e : Bool) (d a b : Port) (cond : CmpCond)
  | li (u : Alu) (g : Guard) (d : Port) (imm : BitVec 27)
  | lih (u : Alu) (g : Guard) (d : Port) (imm : BitVec 37)
  | pset (u : Alu) (g : Guard) (d a : Port)
  | plog (u : Alu) (g : Guard) (d a b : Port) (tt : BitVec 4)
  | fadd (u : Alu) (g : Guard) (e : Bool) (d a b : Port) (fmt : SD) (rm : Rnd)
  | fsub (u : Alu) (g : Guard) (e : Bool) (d a b : Port) (fmt : SD) (rm : Rnd)
  | fmul (u : Alu) (g : Guard) (e : Bool) (d a b : Port) (fmt : SD) (rm : Rnd)
  | ffma (u : Alu) (g : Guard) (e : Bool) (d a b c : Port) (fmt : SD) (rm : Rnd)
  | fdiv (u : Alu) (g : Guard) (e : Bool) (d a b : Port) (fmt : SD) (rm : Rnd)
  | fsqrt (u : Alu) (g : Guard) (e : Bool) (d a : Port) (fmt : SD) (rm : Rnd)
  | fmin (u : Alu) (g : Guard) (e : Bool) (d a b : Port) (fmt : SD)
  | fmax (u : Alu) (g : Guard) (e : Bool) (d a b : Port) (fmt : SD)
  | fcmp (u : Alu) (g : Guard) (e : Bool) (d a b : Port) (fmt : SD) (cond : FCond)
  | fcvt (u : Alu) (g : Guard) (e : Bool) (d a : Port) (dst : Fmt) (rm : Rnd) (src : Fmt)
  | hget (u : Alu) (g : Guard) (e : Bool) (d a : Port) (sl : BitVec 5)
  | hset (u : Alu) (g : Guard) (d a b : Port) (sl : BitVec 5)
  | hadv (u : Alu) (g : Guard) (d a b : Port) (dim : BitVec 2)
  | lds (g : Guard) (e : Bool) (d a c : Port) (sz : BitVec 2) (sx : Bool) (off : BitVec 12)
  | sts (g : Guard) (a b c : Port) (sz : BitVec 2) (off : BitVec 12)
  | tld (g : Guard) (d a b c : Port)
  | tst (g : Guard) (d a b c : Port)
  | tldg (g : Guard) (d a b c : Port)
  | tsts (g : Guard) (d a b c : Port)
  | atomAdd (g : Guard) (e : Bool) (d a b : Port) (sc : Scope) (lvl : Lvl) (q64 : Bool) (off : BitVec 11)
  | atomInc (g : Guard) (e : Bool) (d a b : Port) (sc : Scope) (lvl : Lvl) (q64 : Bool) (off : BitVec 11)
  | atomDec (g : Guard) (e : Bool) (d a b : Port) (sc : Scope) (lvl : Lvl) (q64 : Bool) (off : BitVec 11)
  | atomMin (g : Guard) (e : Bool) (d a b : Port) (sc : Scope) (lvl : Lvl) (q64 uns : Bool) (off : BitVec 11)
  | atomMax (g : Guard) (e : Bool) (d a b : Port) (sc : Scope) (lvl : Lvl) (q64 uns : Bool) (off : BitVec 11)
  | atomAnd (g : Guard) (e : Bool) (d a b : Port) (sc : Scope) (lvl : Lvl) (q64 : Bool) (off : BitVec 11)
  | atomOr (g : Guard) (e : Bool) (d a b : Port) (sc : Scope) (lvl : Lvl) (q64 : Bool) (off : BitVec 11)
  | atomXor (g : Guard) (e : Bool) (d a b : Port) (sc : Scope) (lvl : Lvl) (q64 : Bool) (off : BitVec 11)
  | atomXchg (g : Guard) (e : Bool) (d a b : Port) (sc : Scope) (lvl : Lvl) (q64 : Bool) (off : BitVec 11)
  | atomCas (g : Guard) (e : Bool) (d a b c : Port) (sc : Scope) (lvl : Lvl) (q64 : Bool) (off : BitVec 11)
  | fence (g : Guard) (sc : Scope)
  | bset (g : Guard) (d a b : Port)
  | bpush (g : Guard) (d a : Port)
  | bpop (g : Guard) (d a : Port)
  | bqry (g : Guard) (e : Bool) (d a : Port) (sl : BitVec 3)
  | vadd (g : Guard) (d a b : Port) (rm : Rnd) (rf : BitVec 6) (nl : BitVec 5)
  | vsub (g : Guard) (d a b : Port) (rm : Rnd) (rf : BitVec 6) (nl : BitVec 5)
  | vmul (g : Guard) (d a b : Port) (rm : Rnd) (rf : BitVec 6) (nl : BitVec 5)
  | vfma (g : Guard) (d a b c : Port) (rm : Rnd) (rf : BitVec 6) (nl : BitVec 5)
  | vmin (g : Guard) (d a b : Port) (rf : BitVec 6) (nl : BitVec 5)
  | vmax (g : Guard) (d a b : Port) (rf : BitVec 6) (nl : BitVec 5)
  | vabs (g : Guard) (d a : Port) (rf : BitVec 6) (nl : BitVec 5)
  | vneg (g : Guard) (d a : Port) (rf : BitVec 6) (nl : BitVec 5)
  | vcmp (g : Guard) (d a b : Port) (cond : VCond) (rf : BitVec 6) (nl : BitVec 5)
  | vsel (g : Guard) (d a b c : Port) (rf : BitVec 6) (nl : BitVec 5)
  | vand (g : Guard) (d a b : Port) (rf : BitVec 6) (nl : BitVec 5)
  | vor (g : Guard) (d a b : Port) (rf : BitVec 6) (nl : BitVec 5)
  | vxor (g : Guard) (d a b : Port) (rf : BitVec 6) (nl : BitVec 5)
  | vshl (g : Guard) (d a b : Port) (rf : BitVec 6) (nl : BitVec 5)
  | vshr (g : Guard) (d a b : Port) (ar : Bool) (rf : BitVec 6) (nl : BitVec 5)
  | vcvt (g : Guard) (d a b : Port) (fmt : Fmt) (rm : Rnd) (rf : BitVec 6) (nl : BitVec 5)
  | vqnt (g : Guard) (d a b : Port) (fmt : Fmt) (rm : Rnd) (rf : BitVec 6) (nl : BitVec 5)
  | vdq (g : Guard) (d a b c : Port) (fmt : Fmt) (rm : Rnd) (rf : BitVec 6) (nl : BitVec 5)
  | vaddp8 (g : Guard) (d a b : Port) (fmt : Fmt) (rf : BitVec 6) (nl : BitVec 5)
  | vmulp8 (g : Guard) (d a b : Port) (fmt : Fmt) (rf : BitVec 6) (nl : BitVec 5)
  | vbcast (g : Guard) (d a : Port) (fmt : Fmt) (rf : BitVec 6) (nl : BitVec 5)
  | vrow (g : Guard) (d a : Port) (sf rf : BitVec 6) (nl : BitVec 5)
  | vrowRel (g : Guard) (d : Port)
  | vperm (g : Guard) (d a b : Port) (rf : BitVec 6) (nl : BitVec 5)
  | vsum (g : Guard) (e : Bool) (d a : Port) (rm : Rnd) (rf : BitVec 6) (nl : BitVec 5)
  | vmaxr (g : Guard) (e : Bool) (d a : Port) (arg : Bool) (rf : BitVec 6) (nl : BitVec 5)
  | vmred (g : Guard) (d a b : Port) (cop : RedOp) (rm : Rnd) (rf : BitVec 6) (nl : BitVec 5)
  | vmscan (g : Guard) (d a b : Port) (cop : RedOp) (rm : Rnd) (rf : BitVec 6) (nl : BitVec 5)
  | vband (g : Guard) (d a b : Port) (rf : BitVec 6) (nl : BitVec 5)
  | vpopc (g : Guard) (d a : Port) (rf : BitVec 6) (nl : BitVec 5)
  | vpfx (g : Guard) (d a b : Port) (rf : BitVec 6) (nl : BitVec 5)
  | visect (g : Guard) (e : Bool) (d a b c : Port) (rf : BitVec 6) (nl : BitVec 5)
  | vlsem (g : Guard) (d a b : Port) (rf : BitVec 6) (nl : BitVec 5)
  | exp2 (g : Guard) (d a : Port) (rf : BitVec 6) (nl : BitVec 5)
  | log2 (g : Guard) (d a : Port) (rf : BitVec 6) (nl : BitVec 5)
  | rcp (g : Guard) (d a : Port) (rm : Rnd) (rf : BitVec 6) (nl : BitVec 5)
  | rsqrt (g : Guard) (d a : Port) (rm : Rnd) (rf : BitVec 6) (nl : BitVec 5)
  | sqrt (g : Guard) (d a : Port) (rm : Rnd) (rf : BitVec 6) (nl : BitVec 5)
  | sin (g : Guard) (d a : Port) (rf : BitVec 6) (nl : BitVec 5)
  | cos (g : Guard) (d a : Port) (rf : BitVec 6) (nl : BitVec 5)
  | tanh (g : Guard) (d a : Port) (rf : BitVec 6) (nl : BitVec 5)
  | dfrom (g : Guard) (d a : Port) (rf : BitVec 6)
  | dto (g : Guard) (d a : Port) (fmt : Fmt) (rm : Rnd) (rf : BitVec 6)
  | dcos (g : Guard) (e : Bool) (d a b : Port)
  | ddotw (g : Guard) (e : Bool) (d a b : Port)
  | dscl (g : Guard) (d a b : Port)
  | dadd (g : Guard) (d a b : Port)
  | dsub (g : Guard) (d a b : Port)
  | dlerp (g : Guard) (d a b c : Port)
  | dneg (g : Guard) (d a : Port)
  | dcmp (g : Guard) (e : Bool) (d a b c : Port) (act1 act0 : BitVec 2) (act : Bool) (cond : FCond)
  | dnget (g : Guard) (e : Bool) (d a : Port)
  | dnset (g : Guard) (d a : Port)
  | dsplit (g : Guard) (d a b : Port)
  | djoin (g : Guard) (e : Bool) (d a b : Port)
  | mzero (g : Guard) (d : Port) (fmt : Fmt)
  | mload (g : Guard) (d a : Port) (keep : Bool)
  | mma (g : Guard) (d a b c f : Port) (ka kb : Bool) (depth : BitVec 8)
  | mmat (g : Guard) (d a b c f : Port) (ka kb : Bool) (depth : BitVec 8)
  | mmask (g : Guard) (a b : Port)
  | mdrain (g : Guard) (d a b : Port) (rm : Rnd)
  | mstep (g : Guard) (d a b c : Port) (steps1 : BitVec 5)
  | mstash (g : Guard) (d a b c : Port)
  | munst (g : Guard) (d a b c : Port)
  | mfmt (g : Guard) (d a b : Port) (fmt : Fmt) (rm : Rnd)
  | mqry (g : Guard) (e : Bool) (d a : Port) (sl : BitVec 3)
  | msync (g : Guard)
  | tmv (g : Guard) (d a b : Port)
  | cpy (g : Guard) (d a b c : Port) (sc : Scope)
  | cpyl (g : Guard) (d a b : Port) (sc : Scope) (stop : Bool) (llvl : Lvl)
  | cpyq (g : Guard) (e : Bool) (d : Port) (sl : BitVec 2)
  | hqpush (g : Guard) (d a b : Port)
  | hqpop (g : Guard) (d a b : Port)
  | rcmp (g : Guard) (d a b c : Port) (sh : BitVec 5) (sth : Bool) (rsel : RowSel) (rbase : BitVec 9)
  | rrst (g : Guard) (d a b c : Port) (rbase : BitVec 9)
  | rpred (g : Guard) (d a b c : Port) (ronly : Bool) (rdef : BitVec 3) (blk : BitVec 10)
  | rset (g : Guard) (d a b c : Port) (v : BitVec 16)
  | rsetCfg (g : Guard) (a : Port)
  | rcnt (g : Guard) (e : Bool) (d a b : Port) (sl : BitVec 2)
  | kvapp (g : Guard) (d a b : Port) (cel : Bool)
  | kvappGap (g : Guard) (d a b c : Port) (cel : Bool)
  | kvcomAcc (g : Guard) (d a b : Port) (cel : Bool)
  | kvcomSet (g : Guard) (d a b : Port) (cel : Bool)
  | kvtent (g : Guard) (e : Bool) (d a : Port) (cel : Bool)
  | kvroll (g : Guard) (d a : Port) (cel : Bool)
  | kvrscl (g : Guard) (d a b : Port) (cel : Bool)
  | kvfill (g : Guard) (d a b c : Port) (cel : Bool)
  | attn (g : Guard) (d a b c : Port) (cel : Bool)
  | shsend (g : Guard) (d a b : Port) (cel : Bool)
  | shrecv (g : Guard) (d a : Port) (cel : Bool)
  | exitn (g : Guard) (d a b : Port)
  | ovl (g : Guard) (d a b : Port) (frc : Bool) (ovn : BitVec 8) (oslot : BitVec 2)
  | opbpostArm (g : Guard) (d a b : Port) (cnt : Bool)
  | opbpostDec (g : Guard) (d a b : Port)
  | br (g : Guard) (disp : BitVec 27)
  | brc (g : Guard) (a : Port) (cond : BrCond) (disp : BitVec 24)
  | call (g : Guard) (d : Port) (disp : BitVec 27)
  | ret (g : Guard) (a : Port)
  | jr (g : Guard) (d a : Port)
  | loop (g : Guard) (a : Port) (edisp : BitVec 12)
  | loopl (g : Guard) (edisp : BitVec 12)
  | loopx (g : Guard) (n : BitVec 3)
  | fin (g : Guard)
  | await (g : Guard) (e : Bool) (d a b : Port) (cons : Bool)
  | post (g : Guard) (d a b c : Port) (sc : Scope) (rmt : Bool)
  | syncd (g : Guard) (e : Bool) (d : Port) (lv : BitVec 3)
  | yieldc (g : Guard) (e : Bool) (d a : Port)
  | waitq (g : Guard) (e : Bool) (d a : Port)
  | flushy (g : Guard) (e : Bool) (d : Port)
  | mark (g : Guard) (rel : Bool) (exp : BitVec 26)
  | ckpt (g : Guard) (e : Bool) (d : Port)
  | trap (g : Guard) (code : BitVec 16)
  | bkpt (g : Guard) (btag : BitVec 16)
  | nop (g : Guard) (count : BitVec 16)
  | sysrd (g : Guard) (e : Bool) (d a : Port)
  | syswr (g : Guard) (d a : Port)
  | eret (g : Guard)
  | setdmr (g : Guard) (e : Bool) (d a : Port) (rd : Bool)
  | resultLanding (c : Nat)
  | ephemeralExpiry (c n : Nat)
  | bankRefresh (c : Nat)
  | groupWaitEnd (c : Nat)
  | vectorRowStart (c : Nat) (sfu : Bool)
  | vectorRowLanding (c : Nat)
  | pairNormLanding (c : Nat)
  | pairDirectionLanding (c : Nat)
  | mxOperationStart (c : Nat)
  | mxOperationRetire (c : Nat)
  | mstepStepEnd (c : Nat)
  | munstRowsLand (c : Nat)
  | mstashWritesComplete (c : Nat)
  | fillSlotLanded (c b n : Nat)
  | transferStart (c : Nat) (ce : Bool)
  | transferComplete (c : Nat) (ce : Bool)
  | storeSlotPop (c b : Nat)
  | copyCommandTake (c : Nat)
  | engineWaitEnd (c : Nat)
  | copyItemComplete (c : Nat)
  | incrementArrival (n : Nat)
  | pibwinRead (c : Nat)
  | kwinWrite (c : Nat) (v : Word)
  | ksatWrite (c : Nat) (v : Word)
  | atomPerform (c : Nat)
  | atomComplete (c : Nat)
  | fenceComplete (c : Nat)
  | postSend (c : Nat)
  | epochMarkerApply (j n : Nat)
  | rowInstructionStart (c : Nat)
  | rowInstructionComplete (c : Nat)
  | tmRequestSend (c : Nat)
  | cellarRequestPerform (n r : Nat)
  | cellarRequestComplete (n r : Nat)
  | permitGrant (c : Nat) (hi : Bool)
  | microBatchPerform (n r : Nat)
  | microBatchDeliver (c : Nat) (hi : Bool)
  | shstWrite (c : Nat) (v : Word)
  | noticeAppend (n : Nat)
  | exitnAck (n : Nat)
  | hqEntryMove (c : Nat)
  | coreRelease (c : Nat)
  | stepstWrite (c : Nat) (v : Word)
  | armingPerform (p : Nat)
  | taskPlace (p h : Nat) (rects : List Rect)
  | stepDispatch (p h c : Nat)
  | stepStart (c : Nat)
  | taskDone (p h : Nat)
  | taskFailed (p h : Nat)
  | dieCountChange (p h : Nat) (rect : Rect)
  | contextResume (c : Nat)
  | trapEntry (c : Nat)
  | doubleTrap (c : Nat)
  | breakpointFire (c n : Nat)
  | preemptionLanding (c : Nat)
  | contextSwitchDue (c : Nat)
  | spill (c : Nat)
  | spillsp (c : Nat)
  | fill (c : Nat)
  | fillsp (c : Nat)
  | swout (c : Nat)
  | swin (c : Nat)
  | uncorrectableError (c : Nat) (loc : ErrLoc)
  | atagWrite (c : Nat) (v : Word)
  | scycWrite (c : Nat) (v : Word)
  | ephstWrite (c : Nat) (v : Word)
  | seqstWrite (c : Nat) (v : Word)
  | lswinWrite (c : Nat) (v : Word)
  | istagWrite (c o : Nat) (v : Word)
  | dsccmdWrite (c : Nat) (v : Word)
  | discardMarkDone (c : Nat)
  | reelwinWrite (c : Nat) (v : Word)
  | traceRecordWrite (c : Nat)
  | replayCheckpoint (p : Nat)
  | doorbellWrite (q v : Nat) (ro : Bool)
  | commandFetch (q : Nat)
  | commandFetchRetry (q : Nat)
  | arm (q h cnt : Nat) (usec : Bool)
  | dec (q h amt : Nat)
  | inval (q p va len : Nat)
  | invalComplete (p : Nat)
  | dbgstop (q c : Nat)
  | attest (q nonce report : Nat)
  | psetup (q p desc : Nat)
  | ptear (q p : Nat)
  | scrconsWrite (p : Nat) (v : Word)
  | stepRingAppend (p : Nat)
  | bar4Access (off : Nat) (wr : Option Byte)
  | moduleReset (stages : List StageRec)
  | thermalThrottle (temp watts : Nat)
  | thermalStop (temp : Nat)
  | correctableError (c : Nat)
  | qcfgWrite (q : Nat) (cpl : Bool) (v : Word)
  | replay (p n : Nat)
  | groupDomainArrival (p h col gid : Nat)
  | noticeTargetUnreachable (n : Nat)
  | powerRemoval
deriving DecidableEq, Repr

end Sys2Proof
end

