-- ==== Sys2Proof/Machine/State.lean ====
section
/-! DEFINITION. Machine/State.lean: everything the spec gives the module, as plain data, and its value after reset. Each
field names the rule of the spec it comes from. A field marked MODEL is the model's own bookkeeping (notes/assumptions/4.md). -/

namespace Sys2Proof.Machine

/-- Reasons a step stops. -/
inductive Fault where
  /-- `step` and every meaning raise it after POWER_REMOVAL: nothing runs without power. Safe. -/
  | noPower
deriving DecidableEq, Repr

/-- Reasons the model gives an instruction no meaning. -/
inductive Refusal where
  /-- raised by `exec` for an instruction whose meaning has not been written. Safe. -/
  | notModelled (mnemonic : String)
deriving DecidableEq, Repr

/-- A sparse file: key and value pairs, keys strictly rising, no entry equal to the file's default. -/
abbrev Map (α : Type) := List (Nat × α)

/-! ## The core's own state -/

/-- Tile type tags (R140); the reserved codes are stored as void. -/
inductive Tag where
  | void | fp32 | bf16 | fp64 | int32
deriving DecidableEq, Repr

/-- An accumulator tile: its tag, its 64 rows and their residency bits (R139, R140, R201). -/
structure Tile where
  tag   : Tag
  rows  : Vector Row 64
  resid : BitVec 64
deriving DecidableEq, Repr

/-- A loop-stack entry (R94). -/
structure LoopEntry where
  index : BitVec 20
  limit : BitVec 20
  start : BitVec 12
  fin   : BitVec 12
deriving DecidableEq, Repr

/-- The sequencer's resumable position (R93, R109). `grp` is the index of the next group of the bundle at `pc` (R387);
`boundary` says the last bundle ended at an iteration boundary (R102). -/
structure Seq where
  pc    : Nat
  grp   : Nat
  loops : Vector LoopEntry 6
  depth : Nat
  sel   : Nat
  ptgt  : BitVec 12
  pdly  : Nat
  dsc   : Nat
  halt  : Bool
  /-- entries LOOPX pops when its delay slots have issued (R106) -/
  pops  : Nat
  /-- bundles that a zero-count LOOP or LOOPL passes over when its bundle ends (R105) -/
  skip  : Nat
  boundary : Bool
  /-- the bundle at `pc` once it has been fetched: it is fetched once, whatever its groups wait for (R96) -/
  fetched : Option BundleWord
deriving DecidableEq, Repr

/-- The ephemeral copy of a scalar register and its remaining life; life 0 is expired (R117). -/
structure Eph where
  val  : Word
  life : Nat
deriving DecidableEq, Repr

/-- What lands when a result reaches its cycle (R32). -/
inductive Wr where
  | scalar (r : Nat) (v : Word)
  | eph (r : Nat) (v : Word)
  | byp (u : Nat) (v : Word)
  | pred (r : Nat) (v : Bool)
  | handle (r : Nat) (v : HandleBits)
  | row (t r : Nat) (v : Row)
  /-- bits [lo + n − 1 : lo] of a row, from a VCVT that places elements in part of it (R153) -/
  | rowPart (t r lo n : Nat) (v : Row)
  | norm (j : Nat) (v : Word32)
  | dir (j : Nat) (v : Row)
  /-- a SYSWR (R136) -/
  | sysreg (r : Nat) (v : Word)
  /-- EN and COL of DMR from SETDMR (R373) -/
  | dmr (v : Word)
  /-- BSET, BPUSH and BPOP (R197) -/
  | bset (b : Nat) (cfg loc : Word)
  | bpush (b : Nat) (count : Word) (id : Nat)
  | bpop (b : Nat) (count : Word)
  /-- the access cycle of an STS or LDS (R229): `n` bytes at core-scratchpad offset `a` -/
  | store (a n : Nat) (v : Word) (id : Nat)
  | load (a n : Nat) (sx : Bool) (d : Port) (e : Bool)
  /-- a row whose tile has become void or has been retagged since: it is discarded when it lands (R142) -/
  | void (t r : Nat) (v : Row)
  /-- a completion flag that rose while the core was frozen (R309) -/
  | flag (f : Nat)
deriving DecidableEq, Repr

/-- A result in flight: it lands when SCYC has risen `rem` more times. Flags are raised as it lands (R32, R79). -/
structure Flight where
  /-- number of the operation in issue order (MODEL) -/
  id    : Nat
  rem   : Nat
  unit  : Unit'
  slot  : Nat
  flags : BitVec 8
  wrs   : List Wr
deriving DecidableEq, Repr

/-- A row instruction on va or sf that has issued (R147). `vals` are its scalar operands as read at issue, `row` the next
row of its range, `ty` its type, `acc` a running value carried from row to row, `pa` and `pb` the first rows of a triple
pair, `grp` a parameter group size; `dead` discards its tile writes (R142). -/
structure RowOp where
  id   : Nat
  ins  : Instr
  a    : Word
  b    : Word
  c    : Word
  ty   : Tag
  dty  : Tag
  row  : Nat
  acc  : Word
  pa   : Row
  pb   : Row
  grp  : Nat
  dead : Bool
deriving DecidableEq, Repr

/-- va or sf: the instruction whose rows are being read, and up to four issued behind it (R147). -/
structure RowUnit where
  cur   : Option RowOp
  queue : List RowOp
deriving DecidableEq, Repr

/-- Slot states of a bobbin's ring (R190). -/
inductive SlotState where
  | free | reserved | landed | failed
deriving DecidableEq, Repr

/-- A claim on a bobbin slot, in issue order; QP counts the non-keep ones (R190, R194). -/
structure Claim where
  op   : Nat
  slot : Nat
  keep : Bool
  done : Bool
deriving DecidableEq, Repr

/-- A bobbin register: V, CFG, LOC, the moving fields of PTR, the snapshots SBO and ZBO and the slot states (R187 to R197).
HEAD, RDY and QP are computed from these. -/
structure Bobbin where
  v      : Bool
  cfg    : Word
  loc    : Word
  cnt    : Nat
  tail   : Nat
  sbo    : BitVec 21
  zbo    : BitVec 21
  slots  : Map SlotState
  claims : List Claim
deriving DecidableEq, Repr

/-- Where an operation of an engine stands. -/
inductive Phase where
  | queued | started | performed
deriving DecidableEq, Repr

/-- An operation queued in an engine, with everything it read at issue (R113) and the windows, log and tag it carries
(R222, R280, R23). `id` numbers operations in issue order (MODEL). `ha`, `hb`, `hc` are handles, `slot` the bobbin slot
reserved or claimed, `data` core-scratchpad operands read later, `idx` the next item, `val` a result, `fails` its failed
items, `afl` the flags it has raised. -/
structure Op where
  id    : Nat
  ins   : Instr
  core  : Nat
  part  : Nat
  ctag  : BitVec 16
  pc    : Nat
  scyc  : Word
  cflog : Word
  smode : Bool
  spwcl : Word
  spwdi : Word
  a     : Word
  b     : Word
  c     : Word
  f     : Word
  ha    : HandleBits
  hb    : HandleBits
  hc    : HandleBits
  slot  : Nat
  phase : Phase
  idx   : Nat
  val   : Word
  data  : List Byte
  fails : Nat
  afl   : BitVec 8
  /-- in a rerun, the operation of the first run that this one repeats without effect (R404) -/
  orig  : Option Nat
  /-- its step has ended: it completes, and its value is discarded (R390) -/
  mute  : Bool
  /-- the tag of an mx operation's source tile, as it stood at its issue (R142) -/
  tag   : Tag
  /-- the tile an mx operation writes has become void since: its rows are discarded (R142) -/
  dead  : Bool
  /-- an uncorrectable error lies ahead of its item: the byte offset it is met at, and the cause it gives (R241, R400) -/
  err   : Option (Nat × Nat)
deriving DecidableEq, Repr

/-- The operation the array holds: array cycles left, the step of an MSTEP, the non-resident mask and the rows it will
write (R198, R201, R205). -/
structure MxRun where
  op   : Op
  left : Nat
  step : Nat
  nr   : BitVec 64
  rows : Map Row
  afl  : BitVec 8
deriving DecidableEq, Repr

/-- A tag of an overlay slot (R109): ST is 0 empty, 1 loading, 2 resident. -/
structure IsTag where
  img : BitVec 32
  len : BitVec 11
  ovn : BitVec 8
  st  : BitVec 2
deriving DecidableEq, Repr

/-- One lane's permit counts of SHST, with the grants on their way and the row counts of micro-batches sent (R337, R338, R341). -/
structure Lane where
  perm   : Nat
  held   : Nat
  out    : Nat
  pend   : Nat
  grants : Nat
  sizes  : List Nat
deriving DecidableEq, Repr

/-- The state of a context on its core: what a checkpoint takes into the shadow store (R401) and the system block of R388. -/
structure Ctx where
  seq    : Seq
  /-- schedule-cycle counter (R114) -/
  scyc   : Word
  /-- scalar file, gain-cell values, and ephemeral copies (R113, R117) -/
  s      : Vector Word 64
  eph    : Vector (Option Eph) 64
  /-- predicates, p0 at bit 0 (R120) -/
  p      : BitVec 8
  /-- handle file (R123) -/
  h      : Vector HandleBits 32
  /-- bypass registers in port order (R121) -/
  byp    : Vector Word 10
  /-- results in flight, in issue order (R32) -/
  flights : List Flight
  va     : RowUnit
  sf     : RowUnit
  /-- arithmetic flags and controls, trap enables, stochastic rounding (R76) -/
  afl    : Word
  afte   : Word
  srseed : Word
  srctr  : Word
  /-- bank-hash key (R220), windows (R222), failure log (R289) -/
  bhkey  : Word
  spwcl  : Word
  spwdi  : Word
  cflog  : Word
  /-- domain membership (R371), permit counts (R338), thresholds (R300) -/
  dmr    : Word
  lo     : Lane
  hi     : Lane
  pcfg   : Word
  /-- counting flags and their saturation bits (R268, R289) -/
  k      : Vector (BitVec 20) 32
  ksat   : BitVec 32
  /-- accumulator tiles (R139), drain masks (R208) -/
  tiles  : Vector Tile 8
  drow   : Word
  dcol   : Word
  /-- direction and norm files (R169) -/
  dirs   : Vector Row 16
  norms  : Vector Word32 16
  bob    : Vector Bobbin 16
  /-- the reel (R301) -/
  reel   : Vector (BitVec 16) 4096
  /-- empty cycles a NOP still owes (R54) -/
  nops   : Nat
deriving DecidableEq, Repr

/-- A cause waiting to be taken (R384). -/
structure Held where
  cause  : Nat
  mask   : BitVec 8
  detail : BitVec 16
  addr   : Word
  ofs    : Word
  async  : Bool
  notice : Bool
deriving DecidableEq, Repr

/-- Privilege modes (R22). -/
inductive Mode where
  | u | s
deriving DecidableEq, Repr

/-- What the core is doing: free; dispatched a step and loading its overlay or about to start; running one; its step's
record waiting for the ring (R434); stopped by a double trap (R386); retired (R406). -/
inductive Act where
  | free | starting | running | recording | stopped | retired
deriving DecidableEq, Repr

/-- A pending-increment buffer entry (R271). -/
structure PibEntry where
  ctag : BitVec 16
  flag : Nat
  amt  : Nat
deriving DecidableEq, Repr

/-- An away-table entry (R398). `addr` is the virtual address of the saved AFL, translated at each use (R244); `slots` are the slots whose operations delivered each flag of the mask (R80). -/
structure Away where
  ctag  : BitVec 16
  addr  : Nat
  count : Nat
  mask  : BitVec 8
  slots : Map (BitVec 8)
deriving DecidableEq, Repr

/-- A memory write recorded for a rerun's signature (R403). -/
structure SigWrite where
  id   : Nat
  addr : Nat
  lvl  : Nat
  data : List Byte
deriving DecidableEq, Repr

/-- What became of a performed-once operation: still outstanding, ended with its result, with or without a failed item and with
the flags it raised, or discarded by a rollback before it was sent (R402 to R404). -/
inductive OnceSt where
  | pending
  | done (v : Word) (ok : Bool) (afl : BitVec 8)
  | unsent
deriving DecidableEq, Repr

/-- An entry of the result log: a performed-once operation by its number (R402). -/
structure OnceRec where
  id : Nat
  st : OnceSt
deriving DecidableEq, Repr

/-- The open checkpoint: the shadow store, the two logs, and the state of a rollback (R401 to R403). `once` is the result
log in issue order, `pos` how many of its operations a rerun has reissued, `since` the first operation number issued after
the last rollback. `rerun` is 0 outside a rerun, else its number; `sigs` are the SCYC and signature of each finished rerun; `first` is the first operation number issued after the CKPT;
`flagsIn` the increments delivered since then by other sources; `resume` the report-point cause that ended the first rerun;
`mid` says that a CKPT's group took it, whose cycle is still to end; `fired`, `failn` and `phase0` are what the core's breakpoints,
failure count and level-0 phase number then were, `syncs` the phase numbers that SYNCDs of level 1 and above have returned since,
`synced` how many of them a rerun has been given again (notes/assumptions/94.md); `yieldHeld` is the core's, as it then was. `ending` is
the cause that ends a rerun, whether it falls at the end of its cycle and that cycle's SCYC, while operations of the interval are still
to be performed. -/
structure Ckpt where
  shadow  : Ctx
  undo    : Map (BitVec 512)
  once    : List OnceRec
  pos     : Nat
  since   : Nat
  rerun   : Nat
  sigs    : List (Word × Word)
  writes  : List SigWrite
  errors  : Nat
  first   : Nat
  flagsIn : List (Nat × Nat)
  resume  : Option Held
  mid     : Bool
  fired   : BitVec 2
  failn   : Nat
  phase0  : BitVec 32
  syncs   : List (BitVec 32)
  synced  : Nat
  yieldHeld : Option (BitVec 32)
  ending  : Option (Held × Bool × Word)
deriving DecidableEq, Repr

/-- The trace unit (R408 to R415): the block as read at the step start or last ERET, its position and counts, whether
interlock trace is armed, the SCLK of the step's last MARK, breakpoints that have fired, and up to 64 buffered records. -/
structure Trace where
  tsb   : BitVec 512
  on    : Bool
  page  : Nat
  idx   : Nat
  drop  : Nat
  tflt  : Nat
  armed : Bool
  prev  : Word
  fired : BitVec 2
  buf   : List (BitVec 256)
  /-- a block read in this step had a reserved bit set: trace is off until the next step (R411) -/
  spoilt : Bool
  /-- the TFAULT record due as the first of the next page, and the pages that have faulted since a record was written (R415) -/
  fault : Option (BitVec 256)
  bad   : Nat
deriving DecidableEq, Repr

/-- A context of this core that is not the running one: one whose image or record the save engine has written, or one
that a placed task has here and that has not run yet. It keeps what no save area holds: its task and step, the level-0
phase number, the step clock, the trace unit's step state, its failure count, and the mask it yielded with or is to yield with (R369, R374,
R396, R408); `scyc` and `srctr` are the SCYC and SRCTR it was saved
with, `flagsAt` is the virtual address its flag words were saved at, `atEnd` says that it has no step in progress; `dmr`, `arrived` and `phaseEnd` are its domain
membership and what its SYNCD has come to (R368, R369). -/
structure Parked where
  ctag   : BitVec 16
  part   : Nat
  task   : Nat
  lin    : Nat
  phase0 : BitVec 32
  sclk   : Word
  scyc   : Word
  srctr  : Word
  failn  : Nat
  trace  : Trace
  yielded : Option (BitVec 32)
  yieldHeld : Option (BitVec 32)
  flagsAt : Nat
  atEnd  : Bool
  dmr    : Word
  arrived : Option Nat
  phaseEnd : Option (BitVec 32)
deriving DecidableEq, Repr

/-- How far the context of a frozen core has been saved: not, by SPILL, or ready to give up its core after SPILLSP or SWOUT
(R394 to R397); with the virtual address of its saved flag words. -/
inductive Saved where
  | no | image (flagsAt : Nat) | ready (flagsAt : Nat)
deriving DecidableEq, Repr

/-- A group held before issue: the reason code of R410 and the clocks so far; reason 0 once the hold has ended. -/
structure Hold where
  reason : Nat
  clocks : Nat
deriving DecidableEq, Repr

/-- A core: the running context, and what belongs to the core itself. -/
structure Core where
  ctx    : Ctx
  mode   : Mode
  act    : Act
  /-- context tag, task and step the core holds (R23, R359, R361) -/
  ctag   : BitVec 16
  part   : Nat
  task   : Nat
  lin    : Nat
  /-- the level-0 domain's phase number (R369), the step clock count (R408) -/
  phase0 : BitVec 32
  sclk   : Word
  hold   : Option Hold
  /-- a group's checks have passed and its slots are committing (MODEL) -/
  committing : Bool
  /-- the ports that results have landed in during this schedule cycle, each with the number of the operation it came from (R33; MODEL) -/
  landed : List (Nat × Nat)
  /-- causes held for a report point (R384); causes that fall at the end of this cycle (R80, R391) -/
  held   : List Held
  due    : List Held
  /-- S-mode state: what the trap froze (R383), flights of the handler itself are in `ctx` -/
  frozen : List Flight
  frozenVa : RowUnit
  frozenSf : RowUnit
  frozenNops : Nat
  frozenPops : Nat
  /-- the first operation number the handler issues with (MODEL) -/
  frozenAt : Nat
  /-- the trapped context has no step in progress: it was frozen at step end (R392, R393) -/
  atEnd  : Bool
  saved  : Saved
  parked : List Parked
  /-- an ERET of this bundle takes effect when the bundle ends (R390) -/
  eretReq : Bool
  /-- which scalar registers were ephemeral when a context was spilled, by tag (R119) -/
  spillEph : Map Word
  tvec   : Word
  stepst : Word
  ctxspill : Word
  ctxBusy : Option Nat
  ctxErr : Option Nat
  ctxTag : BitVec 16
  ctxOp  : Nat
  dsc    : Word
  hqsel  : Word
  kwin   : Nat
  reelSel : Nat
  istag  : Vector IsTag 4
  cec    : Nat
  uec    : Nat
  ovf    : Nat
  ckn    : BitVec 16
  inten  : Bool
  ckpt   : Option Ckpt
  trace  : Trace
  /-- engine queues: ag transfers and ATOMs (R230), ce (R266), commands taken by the copy engine (R265), mx (R198),
  the array, tm (R294), the running row instruction, sy's POSTs (R286), pending FENCEs (R257), stash and unstash
  traffic (R214), SHRECVs not yet delivered (R343) -/
  ag     : List Op
  ce     : List Op
  taken  : List Op
  mxq    : List Op
  mx     : Option MxRun
  tm     : List Op
  rowRun : Option Op
  sy     : List Op
  fences : List Op
  stash  : List Op
  recv   : List Op
  /-- outstanding-copy count and failure count of the context (R267, R287) -/
  outst  : Nat
  failn  : Nat
  pib    : List PibEntry
  away   : List Away
  /-- freed entries of the away table whose mask is still owed to their contexts (R398) -/
  delivered : List Away
  /-- SYNCD: the level at which the core has arrived, and the phase number a finished phase hands it (R369) -/
  arrived : Option Nat
  phaseEnd : Option (BitVec 32)
  /-- YIELD: the mask of the group's YIELD; the mask of a context waiting to be resumed (R374) -/
  yielding : Option (Port × Bool × BitVec 32)
  /-- a YIELD whose cycle ended in a trap, kept for the context's return (R384, R393) -/
  frozenYield : Option (Port × Bool × BitVec 32)
  yielded : Option (BitVec 32)
  /-- a YIELD that pre-empts, held until both lanes are clear, with its mask (R344, R374) -/
  yieldHeld : Option (BitVec 32)
  /-- an uncorrectable error met in S mode, for which the context is rolled back at its ERET (R22, R400) -/
  rollDue : Bool
  /-- host queue whose DBGSTOP waits for the freeze (R423), pre-emption and context switch requests (R392, R416) -/
  dbgReq : Option Nat
  preReq : Bool
  swReq  : Bool
deriving DecidableEq, Repr

/-! ## The module -/

/-- An entry of an engine's range-translation cache (R242): the virtual range [vb, vb + len) of a partition lies at [pb, pb + len),
with one W bit. -/
structure XRange where
  part : Nat
  vb   : Nat
  len  : Nat
  pb   : Nat
  w    : Bool
deriving DecidableEq, Repr

/-- An increment on its way (R269), with the die and clock it left with (R254), and the operation `srcOp` of core `src` that
sent it. `post` says that a POST completes when it arrives, `counts` that it is a completion increment, until whose arrival its
operation is an outstanding copy (R267, R271), `free` that nothing its core issued earlier comes before it (R347). -/
structure Incr where
  core  : Nat
  ctag  : BitVec 16
  flag  : Nat
  amt   : Nat
  die   : Nat
  clock : Vector (BitVec 32) 12
  src   : Nat
  srcOp : Nat
  post  : Bool
  counts : Bool
  free  : Bool
deriving DecidableEq, Repr

/-- An exit notice on the notice lane (R345, R346): `stage` is queued for arrival, appended, or acknowledged. -/
structure Notice where
  op    : Op
  bind  : Nat
  mod   : Nat
  die   : Nat
  hq    : Nat
  bytes : List Byte
  phase : Phase
deriving DecidableEq, Repr

/-- A hatch queue's words (R375). -/
structure Hatch where
  cfg : Word
  bnd : Word
  ptr : Word
deriving DecidableEq, Repr

/-- An epoch marker on its way to a die (R254). -/
structure Marker where
  src   : Nat
  epoch : BitVec 32
  clock : Vector (BitVec 32) 12
deriving DecidableEq, Repr

/-- A die: its vector clock, markers not yet applied, and a C-die's hatch queues (R254, R375). -/
structure Die where
  vc      : Vector (BitVec 32) 12
  markers : List Marker
  hatch   : Map Hatch
deriving DecidableEq, Repr

/-- A micro-batch in a lane's receive buffer: its SHSEND, the next row, and the rows' triples, none for a failed row (R342). -/
structure Batch where
  op   : Op
  hi   : Bool
  rows : List (Option (List Byte))
  done : Bool
deriving DecidableEq, Repr

/-- A cellar unit: accepted requests in arrival order, micro-batches, and the lengths CL and TL of its sequence slots (R312, R315). -/
structure Cellar where
  reqs    : List Op
  batches : List Batch
  lens    : Map (Nat × Nat)
deriving DecidableEq, Repr

/-- Task states (R354). -/
inductive TState where
  | idle | waiting | ready | running | done | failed
deriving DecidableEq, Repr

/-- A task control block (R354), with the OPB snapshot taken at arming, its rectangles, the steps dispatched and not
retired, steps to dispatch again (R399), and the phase numbers of its domains (R369) by domain key. -/
structure Tcb where
  state  : TState
  ndie   : Nat
  depc   : Nat
  cause  : Nat
  pass   : Nat
  next   : Nat
  done   : Nat
  fails  : Nat
  opb    : BitVec 2048
  rects  : List Rect
  live   : List Nat
  redo   : List (Nat × Option Nat)
  phases : Map (BitVec 32)
  /-- group-domain arrivals from other modules: colour and group (R368) -/
  remote : List (Nat × Nat)
deriving DecidableEq, Repr

/-- A posting in the launch intake (R366, R367): from OPBPOST (with its operation) or from a host queue. `cnt` is the count
or the amount. -/
structure Arming where
  handle : Nat
  dec    : Bool
  cnt    : Option Nat
  op     : Option Op
deriving DecidableEq, Repr

/-- A record waiting for the step completion ring, and what its append lets happen: the core whose step it closes (R434). `after` is a
core whose trace records are written before it (R414). -/
structure RingRec where
  bits  : BitVec 256
  core  : Option Nat
  after : Option Nat
deriving DecidableEq, Repr

/-- A replay checkpoint (R416): the partition's memory, of HBM, cluster and die scratchpads what lies in the `pages` of 64 KiB written
since the last one, or all of it where `whole` says so, with its discard bits, its cores with the contexts spilled there, increments
and epoch markers on their way, the launch intake, TCBs, the decrements and the completion records due, hatch words and sequence lengths, and how long the
order logs were. -/
structure Snapshot where
  whole  : Bool
  pages  : List Nat
  mem    : List Host.Cell
  discard : Map Bool
  cores  : Map Core
  net    : List Incr
  markers : List (Nat × Marker)
  intake : List Arming
  tcbs   : Map Tcb
  walk   : List Nat
  ring   : List RingRec
  hatch  : Map (Map Hatch)
  lens   : Map (Map (Nat × Nat))
  logAt  : Nat
deriving DecidableEq, Repr

/-- What an order log of R417 records: an atomic with the bank or unit that performed it, an epoch, what the scheduler did. -/
inductive LogRec where
  | atom (unit : Nat) (ctag : BitVec 16) (n : Nat)
  | epoch (die src : Nat) (e : BitVec 32)
  | arming (handle : Nat)
  | place (handle : Nat) (rects : List Rect)
  | dispatch (handle lin core : Nat)
deriving DecidableEq, Repr

/-- A partition (R349): whether it is set up, its descriptor as PSETUP read it (R433), its scheduler state (R350), its
completion ring pointers and records waiting (R421, R434), and its replay state (R416 to R418). `walk` are the successors
that a task done has still to decrement (R356); `pausing` says that a replay checkpoint is being taken. -/
structure Part where
  set    : Bool
  tear   : Bool
  desc   : BitVec 8192
  scrprod : BitVec 32
  scrcons : BitVec 32
  intake : List Arming
  tcbs   : Map Tcb
  walk   : List Nat
  ring   : List RingRec
  ckpts  : List Snapshot
  logs   : List LogRec
  replay : Option (List LogRec)
  pausing : Bool
  /-- INVAL ranges waiting for accesses to finish: host queue, VA, length (R244) -/
  inval  : List (Nat × Nat × Nat)
deriving DecidableEq, Repr

/-- A host command queue (R422): its registers, HEAD and STALE of QSTAT, the doorbell's tail, whether the fetcher has been
notified, the re-reads made of a stale entry (R426), the entry being performed, and whether its DBGSTOP has asked for the
freeze (R423). -/
structure HostQ where
  qcfg  : Word
  qcpl  : Word
  head  : BitVec 32
  stale : Bool
  tail  : BitVec 32
  rung  : Bool
  tries : Nat
  cur   : Option (BitVec 512)
  asked : Bool
deriving DecidableEq, Repr

/-- One entry of the boot journal (R428): stage, unit, variant used, outcome (0 failed, 1 succeeded, 2 skipped). -/
structure JournalRec where
  stage   : Nat
  unit    : Nat
  variant : Nat
  outcome : Nat
deriving DecidableEq, Repr

/-- Module status and power (R420, R436). -/
structure Status where
  recov : Bool
  run   : Bool
  hot   : Bool
  clk   : Nat
  tmax  : Nat
  stage : Nat
  hbmu  : BitVec 8
  wvu   : BitVec 16
  ret   : Nat
deriving DecidableEq, Repr

/-- What acts next: an event of the table, or the next group of a core. -/
inductive Act' where
  | ev (i : Instr)
  | run (core : Nat)
deriving DecidableEq, Repr

/-- A host access through a BAR4 window on its way: its byte offset, the byte it writes, and die 0's clock as it entered (R255). -/
structure BarAcc where
  off   : Nat
  wr    : Option Byte
  clock : Vector (BitVec 32) 12
deriving DecidableEq, Repr

/-- The module. -/
structure State where
  /-- power is applied (R116) -/
  power  : Bool
  /-- every byte of HBM, host memory, the scratchpads and the instruction stores, by global address (Ops.lean) -/
  mem    : List Host.Cell
  /-- scratchpad lines whose discard bit is 1, by global line number (R226) -/
  discard : Map Bool
  /-- 64 KiB units of HBM, cluster and die scratchpad written since the last replay checkpoint, by global address (R416) -/
  dirty  : Map Bool
  cores  : Vector Core 256
  parts  : Vector Part 8
  dies   : Vector Die 12
  cellars : Vector Cellar 8
  queues : Vector HostQ 16
  /-- the range-translation caches of the 64 copy engines, the most recently used entry first (R242, R264) -/
  xlat   : Vector (List XRange) 64
  /-- MSI-X vectors signalled (R425) -/
  msix   : BitVec 32
  status : Status
  /-- the boot journal, oldest first (R428) -/
  journal : List JournalRec
  /-- increments and exit notices on their way (R269, R346) -/
  net    : List Incr
  notices : List Notice
  /-- BAR4 accesses that the clock has not yet let through, oldest first (R255) -/
  bar    : List BarAcc
  /-- this module's number in the Weave group (R345) -/
  modno  : Nat
  /-- the next operation number (MODEL), the core `exec` runs a slot instruction on (MODEL), and what acts next (MODEL) -/
  nextId : Nat
  cur    : Nat
  agenda : List Act'
deriving DecidableEq, Repr

/-! ## Reset -/

/-- A void tile: zero bits, every row resident (R142, R201). -/
def Tile.void : Tile := ⟨.void, Vector.replicate 64 0, BitVec.allOnes 64⟩

def LoopEntry.zero : LoopEntry := ⟨0, 0, 0, 0⟩

/-- A cleared sequencer at store address 0. -/
def Seq.zero : Seq :=
  { pc := 0, grp := 0, loops := Vector.replicate 6 LoopEntry.zero, depth := 0, sel := 0, ptgt := 0, pdly := 0,
    dsc := 0, halt := false, pops := 0, skip := 0, boundary := false, fetched := none }

def RowUnit.idle : RowUnit := ⟨none, []⟩

/-- An unconfigured bobbin (R187, R196). -/
def Bobbin.unconfigured : Bobbin := ⟨false, 0, 0, 0, 0, 0, 0, [], []⟩

/-- A lane at reset: two permits, both held (R338). -/
def Lane.reset : Lane := ⟨2, 2, 0, 0, 0, []⟩

/-- Context state after module reset. Values without a rule are DESIGN CHOICE (notes/assumptions/1.md). -/
def Ctx.reset : Ctx :=
  { seq := Seq.zero, scyc := 0, s := Vector.replicate 64 0, eph := Vector.replicate 64 none, p := 1,
    h := Vector.replicate 32 0, byp := Vector.replicate 10 0, flights := [], va := RowUnit.idle, sf := RowUnit.idle,
    afl := 0, afte := 0x80, srseed := 0, srctr := 0, bhkey := 0, spwcl := 0, spwdi := 0, cflog := 0, dmr := 0,
    lo := Lane.reset, hi := Lane.reset, pcfg := 0x7C007C00FC00FC00, k := Vector.replicate 32 0, ksat := 0,
    tiles := Vector.replicate 8 Tile.void, drow := 0, dcol := 0, dirs := Vector.replicate 16 0,
    norms := Vector.replicate 16 0xFF800000, bob := Vector.replicate 16 Bobbin.unconfigured,
    reel := Vector.replicate 4096 0x8000, nops := 0 }

def IsTag.empty : IsTag := ⟨0, 0, 0, 0⟩

def Trace.off : Trace := ⟨0, false, 0, 0, 0, 0, false, 0, 0, [], false, none, 0⟩

/-- A core after module reset: free, in U mode, no handler installed. -/
def Core.reset : Core :=
  { ctx := Ctx.reset, mode := .u, act := .free, ctag := 0, part := 0, task := 0, lin := 0, phase0 := 0, sclk := 0,
    hold := none, committing := false, landed := [], held := [], due := [], frozen := [], frozenVa := RowUnit.idle,
    frozenSf := RowUnit.idle, frozenNops := 0, frozenPops := 0, frozenAt := 0, atEnd := false, saved := .no, parked := [], eretReq := false, spillEph := [], tvec := 0, stepst := 0, ctxspill := 0, ctxBusy := none, ctxErr := none,
    ctxTag := 0, ctxOp := 0, dsc := 0, hqsel := 0, kwin := 0, reelSel := 0, istag := Vector.replicate 4 IsTag.empty,
    cec := 0, uec := 0, ovf := 0, ckn := 0, inten := true, ckpt := none, trace := Trace.off, ag := [], ce := [],
    taken := [], mxq := [], mx := none, tm := [], rowRun := none, sy := [], fences := [], stash := [], recv := [],
    outst := 0, failn := 0, pib := [], away := [], delivered := [], arrived := none, phaseEnd := none, yielding := none, frozenYield := none, yielded := none, yieldHeld := none, rollDue := false,
    dbgReq := none, preReq := false, swReq := false }

def Part.empty : Part :=
  { set := false, tear := false, desc := 0, scrprod := 0, scrcons := 0, intake := [], tcbs := [], walk := [], ring := [],
    ckpts := [], logs := [], replay := none, pausing := false, inval := [] }

def Die.reset : Die := ⟨Vector.replicate 12 0, [], []⟩

def Cellar.reset : Cellar := ⟨[], [], []⟩

def HostQ.reset : HostQ := ⟨0, 0, 0, false, 0, false, 0, none, false⟩

/-- Module status after reset (R420): the clock at 1.4 GHz, everything else 0. -/
def Status.reset : Status := ⟨false, false, false, 0x0E, 0, 0, 0, 0, 0⟩

/-- The machine right after module reset. -/
def State.reset : State :=
  { power := true, mem := [], discard := [], dirty := [], cores := Vector.replicate 256 Core.reset,
    parts := Vector.replicate 8 Part.empty, dies := Vector.replicate 12 Die.reset,
    cellars := Vector.replicate 8 Cellar.reset, queues := Vector.replicate 16 HostQ.reset,
    xlat := Vector.replicate 64 [], msix := 0,
    status := Status.reset, journal := [], net := [], notices := [], bar := [], modno := 0, nextId := 0, cur := 0, agenda := [] }

end Sys2Proof.Machine
end

