-- ==== Sys2Proof/Machine/Bits.lean ====
section
/-! DEFINITION. Machine/Bits.lean: fields of words, little-endian bytes (R10), fixed and sparse files. -/

namespace Sys2Proof.Machine

/-! ## Fields -/

/-- Bits [lo + w − 1 : lo] of a natural number. -/
def field (x lo w : Nat) : Nat := (x >>> lo) % 2 ^ w

/-- Bit `i`. -/
def bitAt (x i : Nat) : Bool := x.testBit i

/-- Replace bits [lo + w − 1 : lo] by the low bits of `v`. -/
def setField (x lo w v : Nat) : Nat := x - (field x lo w) * 2 ^ lo + (v % 2 ^ w) * 2 ^ lo

/-- The field of a bit vector, as a number. -/
def bvField {n : Nat} (x : BitVec n) (lo w : Nat) : Nat := (x.extractLsb' lo w).toNat

/-- A bit vector with one field replaced. -/
def bvSet {n : Nat} (x : BitVec n) (lo w : Nat) (v : Nat) : BitVec n :=
  let m : BitVec n := (BitVec.allOnes w).setWidth n <<< lo
  (x &&& ~~~m) ||| (((BitVec.ofNat w v).setWidth n) <<< lo)

/-- Two's complement value of the low `w` bits. -/
def sextNat (w x : Nat) : Int :=
  let y := x % 2 ^ w
  if w ≠ 0 ∧ 2 ^ (w - 1) ≤ y then (y : Int) - (2 ^ w : Nat) else y

/-- The low `w` bits of an integer. -/
def wrap (w : Nat) (x : Int) : Nat := (x % ((2 ^ w : Nat) : Int)).toNat

/-- The number of one bits among the low `n` bits. -/
def popcount (x : Nat) : Nat → Nat
  | 0 => 0
  | n + 1 => popcount x n + (if x.testBit n then 1 else 0)

/-- Exclusive or of the low `n` bits. -/
def parity (x n : Nat) : Bool := popcount x n % 2 == 1

/-- ⌈x / n⌉. -/
def ceilDiv (x n : Nat) : Nat := (x + n - 1) / n

/-- The numbers `lo`, `lo + 1`, …, `lo + n − 1`. -/
def upFrom (lo : Nat) : Nat → List Nat
  | 0 => []
  | n + 1 => lo :: upFrom (lo + 1) n

/-- `n` copies. -/
def rep {α : Type} (x : α) : Nat → List α
  | 0 => []
  | n + 1 => x :: rep x n

/-! ## Bytes -/

/-- The `n` bytes of a number, least significant first (R10). -/
def leBytes (x : Nat) : Nat → List Byte
  | 0 => []
  | n + 1 => BitVec.ofNat 8 x :: leBytes (x / 256) n

/-- The number whose bytes these are, least significant first (R10). -/
def leNat : List Byte → Nat
  | [] => 0
  | b :: r => b.toNat + 256 * leNat r

/-- The field of a byte string: `n` bytes from byte `o`. -/
def bytesAt (l : List Byte) (o n : Nat) : Nat := leNat ((l.drop o).take n)

/-! ## Fixed files -/

/-- Entry `i` of a file, or `d` past its end. -/
def vget {α : Type} {n : Nat} (v : Vector α n) (i : Nat) (d : α) : α := v[i]?.getD d

/-- A file with entry `i` replaced; unchanged past its end. -/
def vset {α : Type} {n : Nat} (v : Vector α n) (i : Nat) (x : α) : Vector α n := v.setIfInBounds i x

/-- Apply a function to entry `i`. -/
def vmod {α : Type} {n : Nat} (v : Vector α n) (i : Nat) (d : α) (f : α → α) : Vector α n := vset v i (f (vget v i d))

/-- A list entry. -/
def lget {α : Type} (l : List α) (i : Nat) (d : α) : α := l.getD i d

/-! ## Sparse files -/

/-- The value at key `k`, `d` where nothing is listed. -/
def mget {α : Type} (d : α) (k : Nat) : Map α → α
  | [] => d
  | (k', v) :: r => if k' = k then v else mget d k r

/-- Store `v` at key `k`: the listing stays sorted, and a value equal to the default is not listed. -/
def mput {α : Type} [DecidableEq α] (d : α) (k : Nat) (v : α) : Map α → Map α
  | [] => if v = d then [] else [(k, v)]
  | (k', v') :: r =>
    if k < k' then (if v = d then (k', v') :: r else (k, v) :: (k', v') :: r)
    else if k = k' then (if v = d then r else (k, v) :: r)
    else (k', v') :: mput d k v r

/-- Every key of the listing is at least `lo`, keys rise strictly, and no value is the default. -/
def mwf {α : Type} [DecidableEq α] (d : α) (lo : Nat) : Map α → Bool
  | [] => true
  | (k, v) :: r => decide (lo ≤ k) && decide (v ≠ d) && mwf d (k + 1) r

end Sys2Proof.Machine
end

