-- ==== Sys2Proof/WellFormed.lean ====
section
/-! DEFINITION. WellFormed.lean: which instructions the spec admits, field by field. -/

namespace Sys2Proof

/-- G = 0b1000 is reserved (R30). -/
def Guard.wf (g : Guard) : Bool := !g.neg || g.p != 0

/-- Integer source (R126). -/
def okIsrc : Port → Bool
  | .s _ | .byp _ | .p _ | .l _ | .lc | .z => true
  | _ => false
/-- Floating source (R126); also the integer source of the X class (R203). -/
def okFsrc : Port → Bool
  | .s _ | .byp _ | .z => true
  | _ => false
/-- Scalar destination (R126): s0–s63, the slot's own bypass port, or z. -/
def okSdst (u : Unit') : Port → Bool
  | .s _ | .z => true
  | .byp n => n.val == u.num
  | _ => false
/-- Predicate destination (R126): p1–p7. -/
def okPdst : Port → Bool
  | .p n => n != 0
  | _ => false
/-- Predicate operand (R133): p0–p7. -/
def okPred : Port → Bool
  | .p _ => true
  | _ => false
/-- Vector operand (R146): a tile, a scalar source or z. -/
def okVop : Port → Bool
  | .tile _ | .s _ | .byp _ | .z => true
  | _ => false
def okTile : Port → Bool
  | .tile _ => true
  | _ => false
def okTilez : Port → Bool
  | .tile _ | .z => true
  | _ => false
def okDir : Port → Bool
  | .d _ => true
  | _ => false
/-- DCMP's A: a direction or a floating source (R177). -/
def okDirf (p : Port) : Bool := okDir p || okFsrc p
def okDirz : Port → Bool
  | .d _ | .z => true
  | _ => false
def okNrm : Port → Bool
  | .nrm _ => true
  | _ => false
/-- Norm source (R177). -/
def okNsrc (p : Port) : Bool := okNrm p || okFsrc p
def okHdl : Port → Bool
  | .h _ => true
  | _ => false
def okBob : Port → Bool
  | .b _ => true
  | _ => false
def okHb (p : Port) : Bool := okHdl p || okBob p
def okFlg : Port → Bool
  | .k _ => true
  | _ => false
def okFlgz : Port → Bool
  | .k _ | .z => true
  | _ => false
def okSys : Port → Bool
  | .sys _ => true
  | _ => false
/-- Link of CALL and JR (R103, R104). -/
def okLnk : Port → Bool
  | .s _ | .z => true
  | _ => false
/-- Target of RET and JR, address and length of OVL (R104, R110). -/
def okTgt : Port → Bool
  | .s _ | .byp _ => true
  | _ => false
/-- Count port of LOOP (R105). -/
def okLcnt : Port → Bool
  | .s _ | .byp _ | .l _ | .lc | .z => true
  | _ => false
/-- MQRY's A: a tile, or 0x00 (R203). -/
def okMqa : Port → Bool
  | .tile _ => true
  | .s n => n == 0
  | _ => false

/-- E = 1 only where D names a scalar register (R37). -/
def okEph (e : Bool) : Port → Bool
  | .s _ => true
  | _ => !e

/-- POS + LEN ≤ 64 (R129). -/
def okField (bpos len1 : BitVec 6) : Bool := decide (bpos.toNat + len1.toNat + 1 ≤ 64)
/-- The number of rows of a range: NL + 1, or 64 − RF for NL = 31 (R145). -/
def rowCount (rf : BitVec 6) (nl : BitVec 5) : Nat := if nl == 31#5 then 64 - rf.toNat else nl.toNat + 1
/-- RF + NL must not exceed 63 unless NL = 31 (R145). -/
def okRange (rf : BitVec 6) (nl : BitVec 5) : Bool := nl == 31#5 || decide (rf.toNat + nl.toNat ≤ 63)
/-- SF + N − 1 must not exceed 63 (R159). -/
def okSrcRange (sf rf : BitVec 6) (nl : BitVec 5) : Bool := decide (sf.toNat + rowCount rf nl ≤ 64)
/-- RF and N even (R165). -/
def okPairs (rf : BitVec 6) (nl : BitVec 5) : Bool := rf.toNat % 2 == 0 && rowCount rf nl % 2 == 0

def Fmt.isFp8 : Fmt → Bool
  | .e4m3 | .e5m2 => true
  | _ => false
/-- FCVT's formats: binary32, binary64, binary16, BF16, INT32, not two integers (R134). -/
def okFcvtFmt : Fmt → Bool
  | .f32 | .f64 | .f16 | .bf16 | .i32 => true
  | _ => false
def okFcvt (dst src : Fmt) : Bool := okFcvtFmt dst && okFcvtFmt src && !(dst == .i32 && src == .i32)
/-- VCVT's destination formats (R153). -/
def okVcvtFmt : Fmt → Bool
  | .f32 | .f64 | .f16 | .bf16 | .e4m3 | .e5m2 | .i32 => true
  | _ => false
/-- The formats that take stochastic rounding (R75). -/
def okSrFmt : Fmt → Bool
  | .bf16 | .e4m3 | .e5m2 => true
  | _ => false
def okQntFmt : Fmt → Bool
  | .g8 | .g4 | .i8 | .i4 => true
  | _ => false
def okVdqFmt : Fmt → Bool
  | .f32 | .g8 | .g4 | .i8 | .i4 | .e4m3 | .e5m2 => true
  | _ => false
/-- Grouped formats take a parameter tile in B, the others z (R155, R156). -/
def okParam (fmt : Fmt) (b : Port) : Bool := if fmt == .g8 || fmt == .g4 then okTile b else b == .z
def okBcastFmt : Fmt → Bool
  | .f32 | .f64 | .bf16 | .i32 => true
  | _ => false
def okDtoFmt : Fmt → Bool
  | .f32 | .bf16 => true
  | _ => false
def okMzeroFmt : Fmt → Bool
  | .f32 | .f64 | .i32 => true
  | _ => false
/-- DCMP compares two directions, or a scalar cosine with B = z (R186). -/
def okDcmpPair (a b : Port) : Bool := if okDir a then okDir b else b == .z
/-- DCMP's action form has a scalar destination; without it the action fields are 0 (R186). -/
def okDcmpAct (d : Port) (act : Bool) (act1 act0 : BitVec 2) : Bool :=
  if act then !okPdst d else act1 == 0#2 && act0 == 0#2
def okMqrySel (sel : BitVec 3) (a : Port) : Bool := decide (sel.toNat < 3) && (sel == 0#3 || a == .s 0)
def okMqryTile (sel : BitVec 3) (a : Port) : Bool := sel != 0#3 || okTile a
/-- RCNT's selector, with B = 0x00 under .mask (R308). -/
def okRcnt (sel : BitVec 2) (b : Port) : Bool := sel != 3#2 && (sel != 2#2 || b == .s 0)
/-- POST's B and C are 0x00 without .r (R286). -/
def okPostr (rmt : Bool) (b c : Port) : Bool := rmt || (b == .s 0 && c == .s 0)

/-- An instruction the spec admits: every field of a kind its entry lists (R36, R37), every modifier a value it
names. Events carry no encoding; a core, die or cellar they name must exist. -/
def Instr.wf : Instr → Bool
  | .add u g e d a b => g.wf && okEph e d && okSdst u.unit d && okIsrc a && okIsrc b
  | .addi u g d a _ => g.wf && okSdst u.unit d && okIsrc a
  | .sub u g e d a b => g.wf && okEph e d && okSdst u.unit d && okIsrc a && okIsrc b
  | .mul u g e d a b => g.wf && okEph e d && okSdst u.unit d && okIsrc a && okIsrc b
  | .mulh u g e d a b => g.wf && okEph e d && okSdst u.unit d && okIsrc a && okIsrc b
  | .mulhu u g e d a b => g.wf && okEph e d && okSdst u.unit d && okIsrc a && okIsrc b
  | .div u g e d a b => g.wf && okEph e d && okSdst u.unit d && okIsrc a && okIsrc b
  | .divu u g e d a b => g.wf && okEph e d && okSdst u.unit d && okIsrc a && okIsrc b
  | .rem u g e d a b => g.wf && okEph e d && okSdst u.unit d && okIsrc a && okIsrc b
  | .remu u g e d a b => g.wf && okEph e d && okSdst u.unit d && okIsrc a && okIsrc b
  | .and u g e d a b => g.wf && okEph e d && okSdst u.unit d && okIsrc a && okIsrc b
  | .andn u g e d a b => g.wf && okEph e d && okSdst u.unit d && okIsrc a && okIsrc b
  | .or u g e d a b => g.wf && okEph e d && okSdst u.unit d && okIsrc a && okIsrc b
  | .xor u g e d a b => g.wf && okEph e d && okSdst u.unit d && okIsrc a && okIsrc b
  | .shl u g e d a b => g.wf && okEph e d && okSdst u.unit d && okIsrc a && okIsrc b
  | .shr u g e d a b => g.wf && okEph e d && okSdst u.unit d && okIsrc a && okIsrc b
  | .sar u g e d a b => g.wf && okEph e d && okSdst u.unit d && okIsrc a && okIsrc b
  | .rol u g e d a b => g.wf && okEph e d && okSdst u.unit d && okIsrc a && okIsrc b
  | .min u g e d a b => g.wf && okEph e d && okSdst u.unit d && okIsrc a && okIsrc b
  | .max u g e d a b => g.wf && okEph e d && okSdst u.unit d && okIsrc a && okIsrc b
  | .minu u g e d a b => g.wf && okEph e d && okSdst u.unit d && okIsrc a && okIsrc b
  | .maxu u g e d a b => g.wf && okEph e d && okSdst u.unit d && okIsrc a && okIsrc b
  | .clz u g e d a => g.wf && okEph e d && okSdst u.unit d && okIsrc a
  | .ctz u g e d a => g.wf && okEph e d && okSdst u.unit d && okIsrc a
  | .popc u g e d a => g.wf && okEph e d && okSdst u.unit d && okIsrc a
  | .brev u g e d a => g.wf && okEph e d && okSdst u.unit d && okIsrc a
  | .mov u g e d a => g.wf && okEph e d && okSdst u.unit d && okIsrc a
  | .ext u g e d a _ bpos len1 => g.wf && okEph e d && okSdst u.unit d && okIsrc a && okField bpos len1
  | .ins u g e d a b bpos len1 => g.wf && okEph e d && okSdst u.unit d && okIsrc a && okIsrc b && okField bpos len1
  | .sel u g e d a b c => g.wf && okEph e d && okSdst u.unit d && okIsrc a && okIsrc b && okIsrc c
  | .cmp u g e d a b _ => g.wf && okEph e d && (okSdst u.unit d || okPdst d) && okIsrc a && okIsrc b
  | .li u g d _ => g.wf && okSdst u.unit d
  | .lih u g d _ => g.wf && okSdst u.unit d
  | .pset _ g d a => g.wf && okPdst d && okIsrc a
  | .plog _ g d a b _ => g.wf && okPdst d && okPred a && okPred b
  | .fadd u g e d a b _ rm => g.wf && okEph e d && okSdst u.unit d && okFsrc a && okFsrc b && rm != .sr
  | .fsub u g e d a b _ rm => g.wf && okEph e d && okSdst u.unit d && okFsrc a && okFsrc b && rm != .sr
  | .fmul u g e d a b _ rm => g.wf && okEph e d && okSdst u.unit d && okFsrc a && okFsrc b && rm != .sr
  | .ffma u g e d a b c _ rm => g.wf && okEph e d && okSdst u.unit d && okFsrc a && okFsrc b && okFsrc c && rm != .sr
  | .fdiv u g e d a b _ rm => g.wf && okEph e d && okSdst u.unit d && okFsrc a && okFsrc b && rm != .sr
  | .fsqrt u g e d a _ rm => g.wf && okEph e d && okSdst u.unit d && okFsrc a && rm != .sr
  | .fmin u g e d a b _ => g.wf && okEph e d && okSdst u.unit d && okFsrc a && okFsrc b
  | .fmax u g e d a b _ => g.wf && okEph e d && okSdst u.unit d && okFsrc a && okFsrc b
  | .fcmp u g e d a b _ _ => g.wf && okEph e d && (okSdst u.unit d || okPdst d) && okFsrc a && okFsrc b
  | .fcvt u g e d a dst rm src => g.wf && okEph e d && okSdst u.unit d && okFsrc a && okFcvt dst src && rm != .sr
  | .hget u g e d a sl => g.wf && okEph e d && okSdst u.unit d && okHdl a && decide (sl.toNat < 19)
  | .hset _ g d a b sl => g.wf && okHdl d && okHdl a && okIsrc b && decide (sl.toNat < 19)
  | .hadv _ g d a b _ => g.wf && okHdl d && okHdl a && okIsrc b
  | .lds g e d a c _ _ _ => g.wf && okEph e d && okSdst .ag d && okIsrc a && okIsrc c
  | .sts g a b c _ _ => g.wf && okIsrc a && okIsrc b && okIsrc c
  | .tld g d a b c => g.wf && okBob d && okHdl a && okIsrc b && okFlgz c
  | .tst g d a b c => g.wf && okFlgz d && okHdl a && okIsrc b && okBob c
  | .tldg g d a b c => g.wf && okBob d && okHdl a && okIsrc b && okFlgz c
  | .tsts g d a b c => g.wf && okFlgz d && okHdl a && okIsrc b && okBob c
  | .atomAdd g e d a b _ _ _ _ => g.wf && okEph e d && okSdst .ag d && okIsrc a && okIsrc b
  | .atomInc g e d a b _ _ _ _ => g.wf && okEph e d && okSdst .ag d && okIsrc a && okIsrc b
  | .atomDec g e d a b _ _ _ _ => g.wf && okEph e d && okSdst .ag d && okIsrc a && okIsrc b
  | .atomMin g e d a b _ _ _ _ _ => g.wf && okEph e d && okSdst .ag d && okIsrc a && okIsrc b
  | .atomMax g e d a b _ _ _ _ _ => g.wf && okEph e d && okSdst .ag d && okIsrc a && okIsrc b
  | .atomAnd g e d a b _ _ _ _ => g.wf && okEph e d && okSdst .ag d && okIsrc a && okIsrc b
  | .atomOr g e d a b _ _ _ _ => g.wf && okEph e d && okSdst .ag d && okIsrc a && okIsrc b
  | .atomXor g e d a b _ _ _ _ => g.wf && okEph e d && okSdst .ag d && okIsrc a && okIsrc b
  | .atomXchg g e d a b _ _ _ _ => g.wf && okEph e d && okSdst .ag d && okIsrc a && okIsrc b
  | .atomCas g e d a b c _ _ _ _ => g.wf && okEph e d && okSdst .ag d && okIsrc a && okIsrc b && okIsrc c
  | .fence g _ => g.wf
  | .bset g d a b => g.wf && okBob d && okIsrc a && okIsrc b
  | .bpush g d a => g.wf && okBob d && okIsrc a
  | .bpop g d a => g.wf && okBob d && okIsrc a
  | .bqry g e d a sl => g.wf && okEph e d && okSdst .ag d && okBob a && decide (sl.toNat < 4)
  | .vadd g d a b rm rf nl => g.wf && okTile d && okVop a && okVop b && rm != .sr && okRange rf nl
  | .vsub g d a b rm rf nl => g.wf && okTile d && okVop a && okVop b && rm != .sr && okRange rf nl
  | .vmul g d a b rm rf nl => g.wf && okTile d && okVop a && okVop b && rm != .sr && okRange rf nl
  | .vfma g d a b c rm rf nl => g.wf && okTile d && okVop a && okVop b && okVop c && rm != .sr && okRange rf nl
  | .vmin g d a b rf nl => g.wf && okTile d && okVop a && okVop b && okRange rf nl
  | .vmax g d a b rf nl => g.wf && okTile d && okVop a && okVop b && okRange rf nl
  | .vabs g d a rf nl => g.wf && okTile d && okVop a && okRange rf nl
  | .vneg g d a rf nl => g.wf && okTile d && okVop a && okRange rf nl
  | .vcmp g d a b _ rf nl => g.wf && okTile d && okVop a && okVop b && okRange rf nl
  | .vsel g d a b c rf nl => g.wf && okTile d && okVop a && okVop b && okVop c && okRange rf nl
  | .vand g d a b rf nl => g.wf && okTile d && okVop a && okVop b && okRange rf nl
  | .vor g d a b rf nl => g.wf && okTile d && okVop a && okVop b && okRange rf nl
  | .vxor g d a b rf nl => g.wf && okTile d && okVop a && okVop b && okRange rf nl
  | .vshl g d a b rf nl => g.wf && okTile d && okVop a && okVop b && okRange rf nl
  | .vshr g d a b _ rf nl => g.wf && okTile d && okVop a && okVop b && okRange rf nl
  | .vcvt g d a b fmt rm rf nl => g.wf && okTile d && okTile a && okFsrc b && okVcvtFmt fmt && (rm != .sr || okSrFmt fmt) && okRange rf nl
  | .vqnt g d a b fmt rm rf nl => g.wf && okTile d && okTile a && okTilez b && rm != .sr && okQntFmt fmt && okParam fmt b && okRange rf nl
  | .vdq g d a b c fmt rm rf nl => g.wf && okTile d && okTile a && okTilez b && okFsrc c && rm != .sr && okVdqFmt fmt && okParam fmt b && okRange rf nl
  | .vaddp8 g d a b fmt rf nl => g.wf && okTile d && okVop a && okVop b && fmt.isFp8 && okRange rf nl
  | .vmulp8 g d a b fmt rf nl => g.wf && okTile d && okVop a && okVop b && fmt.isFp8 && okRange rf nl
  | .vbcast g d a fmt rf nl => g.wf && okTile d && okFsrc a && okBcastFmt fmt && okRange rf nl
  | .vrow g d a sf rf nl => g.wf && okTile d && okTile a && okRange rf nl && okSrcRange sf rf nl
  | .vrowRel g d => g.wf && okTile d
  | .vperm g d a b rf nl => g.wf && okTile d && okTile a && okTile b && okRange rf nl
  | .vsum g e d a rm rf nl => g.wf && okEph e d && (okTile d || okSdst .va d) && okTile a && rm != .sr && okRange rf nl
  | .vmaxr g e d a _ rf nl => g.wf && okEph e d && (okTile d || okSdst .va d) && okTile a && okRange rf nl
  | .vmred g d a b cop rm rf nl => g.wf && okTile d && okTile a && okTile b && rm != .sr && (cop == .add || rm == .rne) && okRange rf nl
  | .vmscan g d a b cop rm rf nl => g.wf && okTile d && okTile a && okTile b && rm != .sr && (cop == .add || rm == .rne) && okRange rf nl
  | .vband g d a b rf nl => g.wf && okTile d && okTile a && okTile b && okRange rf nl
  | .vpopc g d a rf nl => g.wf && okTile d && okTile a && okRange rf nl
  | .vpfx g d a b rf nl => g.wf && okTile d && okTile a && okFsrc b && okRange rf nl
  | .visect g e d a b c rf nl => g.wf && okEph e d && okSdst .va d && okTile a && okTile b && okFsrc c && okRange rf nl
  | .vlsem g d a b rf nl => g.wf && okTile d && okTile a && okTile b && okRange rf nl && okPairs rf nl
  | .exp2 g d a rf nl => g.wf && okTile d && okVop a && okRange rf nl
  | .log2 g d a rf nl => g.wf && okTile d && okVop a && okRange rf nl
  | .rcp g d a rm rf nl => g.wf && okTile d && okVop a && rm != .sr && okRange rf nl
  | .rsqrt g d a rm rf nl => g.wf && okTile d && okVop a && rm != .sr && okRange rf nl
  | .sqrt g d a rm rf nl => g.wf && okTile d && okVop a && rm != .sr && okRange rf nl
  | .sin g d a rf nl => g.wf && okTile d && okVop a && okRange rf nl
  | .cos g d a rf nl => g.wf && okTile d && okVop a && okRange rf nl
  | .tanh g d a rf nl => g.wf && okTile d && okVop a && okRange rf nl
  | .dfrom g d a _ => g.wf && okDir d && okTile a
  | .dto g d a fmt rm rf => g.wf && okTile d && okDir a && rm != .sr && okDtoFmt fmt && (fmt != .f32 || rf != 63#6)
  | .dcos g e d a b => g.wf && okEph e d && okSdst .dv d && okDir a && okDir b
  | .ddotw g e d a b => g.wf && okEph e d && okSdst .dv d && okDir a && okDir b
  | .dscl g d a b => g.wf && okDir d && okDir a && okFsrc b
  | .dadd g d a b => g.wf && okDir d && okDir a && okDir b
  | .dsub g d a b => g.wf && okDir d && okDir a && okDir b
  | .dlerp g d a b c => g.wf && okDir d && okDir a && okDir b && okFsrc c
  | .dneg g d a => g.wf && okDir d && okDir a
  | .dcmp g e d a b c act1 act0 act _ => g.wf && okEph e d && (okSdst .dv d || okPdst d) && okDirf a && okDirz b && okFsrc c && okDcmpPair a b && okDcmpAct d act act1 act0
  | .dnget g e d a => g.wf && okEph e d && okSdst .dv d && okNrm a
  | .dnset g d a => g.wf && okNrm d && okFsrc a
  | .dsplit g d a b => g.wf && okDir d && okDir a && okNsrc b
  | .djoin g e d a b => g.wf && okEph e d && okSdst .dv d && okNsrc a && okNsrc b
  | .mzero g d fmt => g.wf && okTile d && okMzeroFmt fmt
  | .mload g d a _ => g.wf && okTile d && okBob a
  | .mma g d a b c f _ _ _ => g.wf && okTile d && okBob a && okBob b && okFsrc c && okFsrc f
  | .mmat g d a b c f _ _ _ => g.wf && okTile d && okBob a && okBob b && okFsrc c && okFsrc f
  | .mmask g a b => g.wf && okFsrc a && okFsrc b
  | .mdrain g d a b rm => g.wf && okBob d && okTile a && okFsrc b && rm != .sr
  | .mstep g d a b c _ => g.wf && okTile d && okBob a && okBob b && okBob c
  | .mstash g d a b c => g.wf && okFlgz d && okTile a && okFsrc b && okFsrc c
  | .munst g d a b c => g.wf && okFlgz d && okTile a && okFsrc b && okFsrc c
  | .mfmt g d a b fmt rm => g.wf && okTile d && okTile a && okFsrc b && rm != .sr && okMzeroFmt fmt
  | .mqry g e d a sl => g.wf && okEph e d && okSdst .mx d && okMqa a && okMqrySel sl a && okMqryTile sl a
  | .msync g => g.wf
  | .tmv g d a b => g.wf && okFlgz d && okHdl a && okHb b
  | .cpy g d a b c _ => g.wf && okFlgz d && okHb a && okHb b && okIsrc c
  | .cpyl g d a b _ _ _ => g.wf && okFlgz d && okIsrc a && okIsrc b
  | .cpyq g e d _ => g.wf && okEph e d && okSdst .ce d
  | .hqpush g d a b => g.wf && okFlgz d && okIsrc a && okIsrc b
  | .hqpop g d a b => g.wf && okFlgz d && okIsrc a && okIsrc b
  | .rcmp g d a b c sh sth _ _ => g.wf && okFlgz d && okHdl a && okHdl b && okIsrc c && (sth || sh == 0#5)
  | .rrst g d a b c _ => g.wf && okFlgz d && okHdl a && okHdl b && okIsrc c
  | .rpred g d a b c _ _ _ => g.wf && okFlgz d && okIsrc a && okIsrc b && okIsrc c
  | .rset g d a b c _ => g.wf && okFlgz d && okIsrc a && okIsrc b && okIsrc c
  | .rsetCfg g a => g.wf && okIsrc a
  | .rcnt g e d a b sl => g.wf && okEph e d && okSdst .tm d && okIsrc a && okIsrc b && okRcnt sl b
  | .kvapp g d a b _ => g.wf && okFlgz d && okHdl a && okIsrc b
  | .kvappGap g d a b c _ => g.wf && okFlgz d && okIsrc a && okIsrc b && okIsrc c
  | .kvcomAcc g d a b _ => g.wf && okFlgz d && okIsrc a && okIsrc b
  | .kvcomSet g d a b _ => g.wf && okFlgz d && okIsrc a && okIsrc b
  | .kvtent g e d a _ => g.wf && okEph e d && okSdst .tm d && okIsrc a
  | .kvroll g d a _ => g.wf && okFlgz d && okIsrc a
  | .kvrscl g d a b _ => g.wf && okFlgz d && okIsrc a && okIsrc b
  | .kvfill g d a b c _ => g.wf && okFlgz d && okIsrc a && okIsrc b && okIsrc c
  | .attn g d a b c _ => g.wf && okFlgz d && okHdl a && okIsrc b && okIsrc c
  | .shsend g d a b _ => g.wf && okFlgz d && okHdl a && okIsrc b
  | .shrecv g d a _ => g.wf && okFlgz d && okIsrc a
  | .exitn g d a b => g.wf && okFlgz d && okIsrc a && okIsrc b
  | .ovl g d a b _ _ _ => g.wf && okFlgz d && okTgt a && okTgt b
  | .opbpostArm g d a b cnt => g.wf && okFlgz d && okIsrc a && okIsrc b && (cnt || b == .s 0)
  | .opbpostDec g d a b => g.wf && okFlgz d && okIsrc a && okIsrc b
  | .br g _ => g.wf
  | .brc g a _ _ => g.wf && okIsrc a
  | .call g d _ => g.wf && okLnk d
  | .ret g a => g.wf && okTgt a
  | .jr g d a => g.wf && okLnk d && okTgt a
  | .loop g a _ => g.wf && okLcnt a
  | .loopl g _ => g.wf
  | .loopx g _ => g.wf
  | .fin g => g.wf
  | .await g e d a b _ => g.wf && okEph e d && okSdst .sy d && okFlg a && okIsrc b
  | .post g d a b c _ rmt => g.wf && okFlg d && okIsrc a && okIsrc b && okIsrc c && okPostr rmt b c
  | .syncd g e d lv => g.wf && okEph e d && okSdst .sy d && decide (lv.toNat < 5)
  | .yieldc g e d a => g.wf && okEph e d && okSdst .sy d && okIsrc a
  | .waitq g e d a => g.wf && okEph e d && okSdst .sy d && okIsrc a
  | .flushy g e d => g.wf && okEph e d && okSdst .sy d
  | .mark g _ _ => g.wf
  | .ckpt g e d => g.wf && okEph e d && okSdst .sy d
  | .trap g _ => g.wf
  | .bkpt g _ => g.wf
  | .nop g _ => g.wf
  | .sysrd g e d a => g.wf && okEph e d && okSdst .sy d && okSys a
  | .syswr g d a => g.wf && okSys d && okFsrc a
  | .eret g => g.wf
  | .setdmr g e d a rd => g.wf && okEph e d && okSdst .sy d && okIsrc a && (!rd || a == .s 0)
  | .resultLanding c => decide (c < 256)
  | .ephemeralExpiry c _ => decide (c < 256)
  | .bankRefresh c => decide (c < 256)
  | .groupWaitEnd c => decide (c < 256)
  | .vectorRowStart c _ => decide (c < 256)
  | .vectorRowLanding c => decide (c < 256)
  | .pairNormLanding c => decide (c < 256)
  | .pairDirectionLanding c => decide (c < 256)
  | .mxOperationStart c => decide (c < 256)
  | .mxOperationRetire c => decide (c < 256)
  | .mstepStepEnd c => decide (c < 256)
  | .munstRowsLand c => decide (c < 256)
  | .mstashWritesComplete c => decide (c < 256)
  | .fillSlotLanded c _ _ => decide (c < 256)
  | .transferStart c _ => decide (c < 256)
  | .transferComplete c _ => decide (c < 256)
  | .storeSlotPop c _ => decide (c < 256)
  | .copyCommandTake c => decide (c < 256)
  | .engineWaitEnd c => decide (c < 256)
  | .copyItemComplete c => decide (c < 256)
  | .incrementArrival _ => true
  | .pibwinRead c => decide (c < 256)
  | .kwinWrite c _ => decide (c < 256)
  | .ksatWrite c _ => decide (c < 256)
  | .atomPerform c => decide (c < 256)
  | .atomComplete c => decide (c < 256)
  | .fenceComplete c => decide (c < 256)
  | .postSend c => decide (c < 256)
  | .epochMarkerApply j _ => decide (j < 12)
  | .rowInstructionStart c => decide (c < 256)
  | .rowInstructionComplete c => decide (c < 256)
  | .tmRequestSend c => decide (c < 256)
  | .cellarRequestPerform n _ => decide (n < 8)
  | .cellarRequestComplete n _ => decide (n < 8)
  | .permitGrant c _ => decide (c < 256)
  | .microBatchPerform n _ => decide (n < 8)
  | .microBatchDeliver c _ => decide (c < 256)
  | .shstWrite c _ => decide (c < 256)
  | .noticeAppend _ => true
  | .exitnAck _ => true
  | .hqEntryMove c => decide (c < 256)
  | .coreRelease c => decide (c < 256)
  | .stepstWrite c _ => decide (c < 256)
  | .armingPerform p => decide (p < 8)
  | .taskPlace p _ _ => decide (p < 8)
  | .stepDispatch p _ c => decide (p < 8) && decide (c < 256)
  | .stepStart c => decide (c < 256)
  | .taskDone p _ => decide (p < 8)
  | .taskFailed p _ => decide (p < 8)
  | .dieCountChange p _ _ => decide (p < 8)
  | .contextResume c => decide (c < 256)
  | .trapEntry c => decide (c < 256)
  | .doubleTrap c => decide (c < 256)
  | .breakpointFire c _ => decide (c < 256)
  | .preemptionLanding c => decide (c < 256)
  | .contextSwitchDue c => decide (c < 256)
  | .spill c => decide (c < 256)
  | .spillsp c => decide (c < 256)
  | .fill c => decide (c < 256)
  | .fillsp c => decide (c < 256)
  | .swout c => decide (c < 256)
  | .swin c => decide (c < 256)
  | .uncorrectableError c _ => decide (c < 256)
  | .atagWrite c _ => decide (c < 256)
  | .scycWrite c _ => decide (c < 256)
  | .ephstWrite c _ => decide (c < 256)
  | .seqstWrite c _ => decide (c < 256)
  | .lswinWrite c _ => decide (c < 256)
  | .istagWrite c _ _ => decide (c < 256)
  | .dsccmdWrite c _ => decide (c < 256)
  | .discardMarkDone c => decide (c < 256)
  | .reelwinWrite c _ => decide (c < 256)
  | .traceRecordWrite c => decide (c < 256)
  | .replayCheckpoint p => decide (p < 8)
  | .doorbellWrite q _ _ => decide (q < 16)
  | .commandFetch q => decide (q < 16)
  | .commandFetchRetry q => decide (q < 16)
  | .arm q _ _ _ => decide (q < 16)
  | .dec q _ _ => decide (q < 16)
  | .inval q p _ _ => decide (q < 16) && decide (p < 8)
  | .invalComplete p => decide (p < 8)
  | .dbgstop q c => decide (q < 16) && decide (c < 256)
  | .attest q _ _ => decide (q < 16)
  | .psetup q p _ => decide (q < 16) && decide (p < 8)
  | .ptear q p => decide (q < 16) && decide (p < 8)
  | .scrconsWrite p _ => decide (p < 8)
  | .stepRingAppend p => decide (p < 8)
  | .bar4Access _ _ => true
  | .moduleReset _ => true
  | .thermalThrottle _ _ => true
  | .thermalStop _ => true
  | .correctableError c => decide (c < 256)
  | .qcfgWrite q _ _ => decide (q < 16)
  | .replay p _ => decide (p < 8)
  | .groupDomainArrival p _ _ _ => decide (p < 8)
  | .noticeTargetUnreachable _ => true
  | .powerRemoval => true

end Sys2Proof
end

