-- ==== Sys2Proof/Decode.lean ====
section
/-! DEFINITION. Decode.lean: from the bits of a slot to an instruction or to the named reasons it is illegal (R26 to R53),
and back. -/

namespace Sys2Proof

/-- The fields of a slot (R28). -/
structure Raw where
  stop : Bool
  op   : BitVec 8
  g    : BitVec 4
  d    : BitVec 8
  a    : BitVec 8
  b    : BitVec 8
  x    : BitVec 27
deriving DecidableEq, Repr

/-- Why a slot is illegal, by name; each has a cause code (R45, R89). -/
inductive DecErr where
  /-- unassigned opcode, cause 0x000 + slot -/
  | unassigned
  /-- the guard "never", cause 0x008 + slot -/
  | never
  /-- malformed no-operation, nonzero unused field or reserved modifier, cause 0x010 + slot -/
  | malformed
  /-- port not accepted in that field, cause 0x020 + slot -/
  | portKind
  /-- reserved port, cause 0x028 + slot -/
  | portReserved
  /-- system register port outside SYSRD and SYSWR, cause 0x030 + slot -/
  | portSystem
  /-- format code reserved or not accepted, cause 0x048 + slot -/
  | format
deriving DecidableEq, Repr

/-- The cause base of each reason; the slot number is added (R45, R89). -/
def DecErr.base : DecErr → Nat
  | .unassigned => 0x000 | .never => 0x008 | .malformed => 0x010 | .portKind => 0x020
  | .portReserved => 0x028 | .portSystem => 0x030 | .format => 0x048

/-- What a slot decodes to. -/
inductive Dec where
  /-- canonical no-operation: not a valid slot (R29) -/
  | nop
  /-- stop-only slot (R29) -/
  | stopOnly
  /-- an instruction -/
  | ok (i : Instr)
  /-- illegal, with every reason found, and the instruction its opcode names if there is one -/
  | bad (why : List DecErr) (i : Option Instr)
deriving DecidableEq, Repr

/-- Third source port, X[25:18] (R37). -/
def Raw.c (r : Raw) : BitVec 8 := r.x.extractLsb' 18 8
/-- Fourth source port of form P, X[17:10] (R37). -/
def Raw.f (r : Raw) : BitVec 8 := r.x.extractLsb' 10 8
/-- The ephemeral bit, X[26] (R37). -/
def Raw.e (r : Raw) : Bool := r.x.getLsbD 26
/-- Form W's immediate {A, B, X}, its low 37 bits (R132). -/
def Raw.wide (r : Raw) : BitVec 37 := r.a.extractLsb' 0 2 ++ r.b ++ r.x
/-- Bits [42:37] of form W's immediate, which LIH requires to be 0 (R132). -/
def Raw.wideHigh (r : Raw) : BitVec 6 := r.a.extractLsb' 2 6

/-- A slot with a 37-bit wide immediate. -/
def Raw.ofWide (op : BitVec 8) (g : BitVec 4) (d : BitVec 8) (imm : BitVec 37) : Raw :=
  ⟨false, op, g, d, 0#6 ++ imm.extractLsb' 35 2, imm.extractLsb' 27 8, imm.extractLsb' 0 27⟩

/-- The fields of the 64 bits of a slot (R28). -/
def Raw.ofBits (w : SlotWord) : Raw :=
  ⟨w.getLsbD 63, w.extractLsb' 55 8, w.extractLsb' 51 4, w.extractLsb' 43 8, w.extractLsb' 35 8,
    w.extractLsb' 27 8, w.extractLsb' 0 27⟩

/-- The 64 bits of a slot (R28). -/
def Raw.toBits (r : Raw) : SlotWord :=
  BitVec.ofBool r.stop ++ r.op ++ r.g ++ r.d ++ r.a ++ r.b ++ r.x

/-- Place a field in X. -/
def xput {w : Nat} (v : BitVec w) (lo : Nat) : BitVec 27 := (v.setWidth 27) <<< lo
/-- Place a bit in X. -/
def xbit (v : Bool) (lo : Nat) : BitVec 27 := xput (BitVec.ofBool v) lo

/-- The port a byte names (R35). -/
def Port.ofByte (x : Byte) : Port :=
  let n := x.toNat
  if h : n < 0x40 then .s ⟨n, h⟩
  else if n < 0x60 then .h (Fin.ofNat 32 (n - 0x40))
  else if n < 0x6A then .byp (Fin.ofNat 10 (n - 0x60))
  else if n < 0x70 then .reserved (Fin.ofNat 14 (n - 0x6A))
  else if n < 0x78 then .p (Fin.ofNat 8 (n - 0x70))
  else if n < 0x7E then .l (Fin.ofNat 6 (n - 0x78))
  else if n = 0x7E then .lc
  else if n = 0x7F then .z
  else if n < 0x88 then .tile (Fin.ofNat 8 (n - 0x80))
  else if n < 0x90 then .reserved (Fin.ofNat 14 (n - 0x82))
  else if n < 0xA0 then .d (Fin.ofNat 16 (n - 0x90))
  else if n < 0xB0 then .nrm (Fin.ofNat 16 (n - 0xA0))
  else if n < 0xC0 then .b (Fin.ofNat 16 (n - 0xB0))
  else if n < 0xE0 then .k (Fin.ofNat 32 (n - 0xC0))
  else .sys (Fin.ofNat 32 (n - 0xE0))

/-- The guard field's meaning (R30). -/
def Guard.ofCode (x : BitVec 4) : Guard := ⟨x.getLsbD 3, Fin.ofNat 8 (x.toNat % 8)⟩

/-- A condition that must hold, with the error it is otherwise. -/
def mustBe (why : DecErr) (ok : Bool) : List DecErr := if ok then [] else [why]

/-- A field the opcode does not use must hold 0x00 (R37). -/
def unusedErr (x : BitVec 8) : List DecErr := mustBe .malformed (x == 0#8)

/-- R36: a reserved port and a system port are reported under their own codes only. -/
def kindErr (ok : Bool) : Port → List DecErr
  | .reserved _ => [.portReserved]
  | .sys _ => [.portSystem]
  | _ => mustBe .portKind ok

/-- The system register field of SYSRD and SYSWR (R136). -/
def sysErr : Port → List DecErr
  | .reserved _ => [.portReserved]
  | .sys _ => []
  | _ => [.portKind]

/-- A field of SYSRD or SYSWR other than the system register's: a system register port there is a port not accepted (R36). -/
def sysOpErr (ok : Bool) : Port → List DecErr
  | .reserved _ => [.portReserved]
  | _ => mustBe .portKind ok

/-- Is this port reported under a code of its own, and so never as one that is not accepted (R36)? -/
def ownCode : Port → Bool
  | .reserved _ => true
  | .sys _ => true
  | _ => false

/-- The instruction, when no error was found. -/
def build (why : List DecErr) (i : Instr) : Dec := if why.isEmpty then .ok i else .bad why (some i)

/-- R47: code 0x01, ADD. -/
def decodeS01 (u : Alu) (r : Raw) (g : Guard) : Dec :=
  let d := Port.ofByte r.d
  let a := Port.ofByte r.a
  let b := Port.ofByte r.b
  let e := r.e
  build (kindErr (okSdst u.unit d) d
    ++ kindErr (okIsrc a) a
    ++ kindErr (okIsrc b) b
    ++ unusedErr r.c
    ++ mustBe .malformed (r.x &&& 0x3FFFF#27 == 0#27)
    ++ mustBe .portKind (okEph e d)) (.add u g e d a b)

/-- R47: code 0x02, ADDI. -/
def decodeS02 (u : Alu) (r : Raw) (g : Guard) : Dec :=
  let d := Port.ofByte r.d
  let a := Port.ofByte r.a
  let imm := r.x.extractLsb' 0 27
  build (kindErr (okSdst u.unit d) d
    ++ kindErr (okIsrc a) a
    ++ unusedErr r.b) (.addi u g d a imm)

/-- R47: code 0x03, SUB. -/
def decodeS03 (u : Alu) (r : Raw) (g : Guard) : Dec :=
  let d := Port.ofByte r.d
  let a := Port.ofByte r.a
  let b := Port.ofByte r.b
  let e := r.e
  build (kindErr (okSdst u.unit d) d
    ++ kindErr (okIsrc a) a
    ++ kindErr (okIsrc b) b
    ++ unusedErr r.c
    ++ mustBe .malformed (r.x &&& 0x3FFFF#27 == 0#27)
    ++ mustBe .portKind (okEph e d)) (.sub u g e d a b)

/-- R47: code 0x04, MUL. -/
def decodeS04 (u : Alu) (r : Raw) (g : Guard) : Dec :=
  let d := Port.ofByte r.d
  let a := Port.ofByte r.a
  let b := Port.ofByte r.b
  let e := r.e
  build (kindErr (okSdst u.unit d) d
    ++ kindErr (okIsrc a) a
    ++ kindErr (okIsrc b) b
    ++ unusedErr r.c
    ++ mustBe .malformed (r.x &&& 0x3FFFF#27 == 0#27)
    ++ mustBe .portKind (okEph e d)) (.mul u g e d a b)

/-- R47: code 0x05, MULH. -/
def decodeS05 (u : Alu) (r : Raw) (g : Guard) : Dec :=
  let d := Port.ofByte r.d
  let a := Port.ofByte r.a
  let b := Port.ofByte r.b
  let e := r.e
  build (kindErr (okSdst u.unit d) d
    ++ kindErr (okIsrc a) a
    ++ kindErr (okIsrc b) b
    ++ unusedErr r.c
    ++ mustBe .malformed (r.x &&& 0x3FFFF#27 == 0#27)
    ++ mustBe .portKind (okEph e d)) (.mulh u g e d a b)

/-- R47: code 0x06, MULHU. -/
def decodeS06 (u : Alu) (r : Raw) (g : Guard) : Dec :=
  let d := Port.ofByte r.d
  let a := Port.ofByte r.a
  let b := Port.ofByte r.b
  let e := r.e
  build (kindErr (okSdst u.unit d) d
    ++ kindErr (okIsrc a) a
    ++ kindErr (okIsrc b) b
    ++ unusedErr r.c
    ++ mustBe .malformed (r.x &&& 0x3FFFF#27 == 0#27)
    ++ mustBe .portKind (okEph e d)) (.mulhu u g e d a b)

/-- R47: code 0x07, DIV. -/
def decodeS07 (u : Alu) (r : Raw) (g : Guard) : Dec :=
  let d := Port.ofByte r.d
  let a := Port.ofByte r.a
  let b := Port.ofByte r.b
  let e := r.e
  build (kindErr (okSdst u.unit d) d
    ++ kindErr (okIsrc a) a
    ++ kindErr (okIsrc b) b
    ++ unusedErr r.c
    ++ mustBe .malformed (r.x &&& 0x3FFFF#27 == 0#27)
    ++ mustBe .portKind (okEph e d)) (.div u g e d a b)

/-- R47: code 0x08, DIVU. -/
def decodeS08 (u : Alu) (r : Raw) (g : Guard) : Dec :=
  let d := Port.ofByte r.d
  let a := Port.ofByte r.a
  let b := Port.ofByte r.b
  let e := r.e
  build (kindErr (okSdst u.unit d) d
    ++ kindErr (okIsrc a) a
    ++ kindErr (okIsrc b) b
    ++ unusedErr r.c
    ++ mustBe .malformed (r.x &&& 0x3FFFF#27 == 0#27)
    ++ mustBe .portKind (okEph e d)) (.divu u g e d a b)

/-- R47: code 0x09, REM. -/
def decodeS09 (u : Alu) (r : Raw) (g : Guard) : Dec :=
  let d := Port.ofByte r.d
  let a := Port.ofByte r.a
  let b := Port.ofByte r.b
  let e := r.e
  build (kindErr (okSdst u.unit d) d
    ++ kindErr (okIsrc a) a
    ++ kindErr (okIsrc b) b
    ++ unusedErr r.c
    ++ mustBe .malformed (r.x &&& 0x3FFFF#27 == 0#27)
    ++ mustBe .portKind (okEph e d)) (.rem u g e d a b)

/-- R47: code 0x0A, REMU. -/
def decodeS0A (u : Alu) (r : Raw) (g : Guard) : Dec :=
  let d := Port.ofByte r.d
  let a := Port.ofByte r.a
  let b := Port.ofByte r.b
  let e := r.e
  build (kindErr (okSdst u.unit d) d
    ++ kindErr (okIsrc a) a
    ++ kindErr (okIsrc b) b
    ++ unusedErr r.c
    ++ mustBe .malformed (r.x &&& 0x3FFFF#27 == 0#27)
    ++ mustBe .portKind (okEph e d)) (.remu u g e d a b)

/-- R47: code 0x10, AND. -/
def decodeS10 (u : Alu) (r : Raw) (g : Guard) : Dec :=
  let d := Port.ofByte r.d
  let a := Port.ofByte r.a
  let b := Port.ofByte r.b
  let e := r.e
  build (kindErr (okSdst u.unit d) d
    ++ kindErr (okIsrc a) a
    ++ kindErr (okIsrc b) b
    ++ unusedErr r.c
    ++ mustBe .malformed (r.x &&& 0x3FFFF#27 == 0#27)
    ++ mustBe .portKind (okEph e d)) (.and u g e d a b)

/-- R47: code 0x11, ANDN. -/
def decodeS11 (u : Alu) (r : Raw) (g : Guard) : Dec :=
  let d := Port.ofByte r.d
  let a := Port.ofByte r.a
  let b := Port.ofByte r.b
  let e := r.e
  build (kindErr (okSdst u.unit d) d
    ++ kindErr (okIsrc a) a
    ++ kindErr (okIsrc b) b
    ++ unusedErr r.c
    ++ mustBe .malformed (r.x &&& 0x3FFFF#27 == 0#27)
    ++ mustBe .portKind (okEph e d)) (.andn u g e d a b)

/-- R47: code 0x12, OR. -/
def decodeS12 (u : Alu) (r : Raw) (g : Guard) : Dec :=
  let d := Port.ofByte r.d
  let a := Port.ofByte r.a
  let b := Port.ofByte r.b
  let e := r.e
  build (kindErr (okSdst u.unit d) d
    ++ kindErr (okIsrc a) a
    ++ kindErr (okIsrc b) b
    ++ unusedErr r.c
    ++ mustBe .malformed (r.x &&& 0x3FFFF#27 == 0#27)
    ++ mustBe .portKind (okEph e d)) (.or u g e d a b)

/-- R47: code 0x13, XOR. -/
def decodeS13 (u : Alu) (r : Raw) (g : Guard) : Dec :=
  let d := Port.ofByte r.d
  let a := Port.ofByte r.a
  let b := Port.ofByte r.b
  let e := r.e
  build (kindErr (okSdst u.unit d) d
    ++ kindErr (okIsrc a) a
    ++ kindErr (okIsrc b) b
    ++ unusedErr r.c
    ++ mustBe .malformed (r.x &&& 0x3FFFF#27 == 0#27)
    ++ mustBe .portKind (okEph e d)) (.xor u g e d a b)

/-- R47: code 0x14, SHL. -/
def decodeS14 (u : Alu) (r : Raw) (g : Guard) : Dec :=
  let d := Port.ofByte r.d
  let a := Port.ofByte r.a
  let b := Port.ofByte r.b
  let e := r.e
  build (kindErr (okSdst u.unit d) d
    ++ kindErr (okIsrc a) a
    ++ kindErr (okIsrc b) b
    ++ unusedErr r.c
    ++ mustBe .malformed (r.x &&& 0x3FFFF#27 == 0#27)
    ++ mustBe .portKind (okEph e d)) (.shl u g e d a b)

/-- R47: code 0x15, SHR. -/
def decodeS15 (u : Alu) (r : Raw) (g : Guard) : Dec :=
  let d := Port.ofByte r.d
  let a := Port.ofByte r.a
  let b := Port.ofByte r.b
  let e := r.e
  build (kindErr (okSdst u.unit d) d
    ++ kindErr (okIsrc a) a
    ++ kindErr (okIsrc b) b
    ++ unusedErr r.c
    ++ mustBe .malformed (r.x &&& 0x3FFFF#27 == 0#27)
    ++ mustBe .portKind (okEph e d)) (.shr u g e d a b)

/-- R47: code 0x16, SAR. -/
def decodeS16 (u : Alu) (r : Raw) (g : Guard) : Dec :=
  let d := Port.ofByte r.d
  let a := Port.ofByte r.a
  let b := Port.ofByte r.b
  let e := r.e
  build (kindErr (okSdst u.unit d) d
    ++ kindErr (okIsrc a) a
    ++ kindErr (okIsrc b) b
    ++ unusedErr r.c
    ++ mustBe .malformed (r.x &&& 0x3FFFF#27 == 0#27)
    ++ mustBe .portKind (okEph e d)) (.sar u g e d a b)

/-- R47: code 0x17, ROL. -/
def decodeS17 (u : Alu) (r : Raw) (g : Guard) : Dec :=
  let d := Port.ofByte r.d
  let a := Port.ofByte r.a
  let b := Port.ofByte r.b
  let e := r.e
  build (kindErr (okSdst u.unit d) d
    ++ kindErr (okIsrc a) a
    ++ kindErr (okIsrc b) b
    ++ unusedErr r.c
    ++ mustBe .malformed (r.x &&& 0x3FFFF#27 == 0#27)
    ++ mustBe .portKind (okEph e d)) (.rol u g e d a b)

/-- R47: code 0x18, MIN. -/
def decodeS18 (u : Alu) (r : Raw) (g : Guard) : Dec :=
  let d := Port.ofByte r.d
  let a := Port.ofByte r.a
  let b := Port.ofByte r.b
  let e := r.e
  build (kindErr (okSdst u.unit d) d
    ++ kindErr (okIsrc a) a
    ++ kindErr (okIsrc b) b
    ++ unusedErr r.c
    ++ mustBe .malformed (r.x &&& 0x3FFFF#27 == 0#27)
    ++ mustBe .portKind (okEph e d)) (.min u g e d a b)

/-- R47: code 0x19, MAX. -/
def decodeS19 (u : Alu) (r : Raw) (g : Guard) : Dec :=
  let d := Port.ofByte r.d
  let a := Port.ofByte r.a
  let b := Port.ofByte r.b
  let e := r.e
  build (kindErr (okSdst u.unit d) d
    ++ kindErr (okIsrc a) a
    ++ kindErr (okIsrc b) b
    ++ unusedErr r.c
    ++ mustBe .malformed (r.x &&& 0x3FFFF#27 == 0#27)
    ++ mustBe .portKind (okEph e d)) (.max u g e d a b)

/-- R47: code 0x1A, MINU. -/
def decodeS1A (u : Alu) (r : Raw) (g : Guard) : Dec :=
  let d := Port.ofByte r.d
  let a := Port.ofByte r.a
  let b := Port.ofByte r.b
  let e := r.e
  build (kindErr (okSdst u.unit d) d
    ++ kindErr (okIsrc a) a
    ++ kindErr (okIsrc b) b
    ++ unusedErr r.c
    ++ mustBe .malformed (r.x &&& 0x3FFFF#27 == 0#27)
    ++ mustBe .portKind (okEph e d)) (.minu u g e d a b)

/-- R47: code 0x1B, MAXU. -/
def decodeS1B (u : Alu) (r : Raw) (g : Guard) : Dec :=
  let d := Port.ofByte r.d
  let a := Port.ofByte r.a
  let b := Port.ofByte r.b
  let e := r.e
  build (kindErr (okSdst u.unit d) d
    ++ kindErr (okIsrc a) a
    ++ kindErr (okIsrc b) b
    ++ unusedErr r.c
    ++ mustBe .malformed (r.x &&& 0x3FFFF#27 == 0#27)
    ++ mustBe .portKind (okEph e d)) (.maxu u g e d a b)

/-- R47: code 0x20, CLZ. -/
def decodeS20 (u : Alu) (r : Raw) (g : Guard) : Dec :=
  let d := Port.ofByte r.d
  let a := Port.ofByte r.a
  let e := r.e
  build (kindErr (okSdst u.unit d) d
    ++ kindErr (okIsrc a) a
    ++ unusedErr r.b
    ++ unusedErr r.c
    ++ mustBe .malformed (r.x &&& 0x3FFFF#27 == 0#27)
    ++ mustBe .portKind (okEph e d)) (.clz u g e d a)

/-- R47: code 0x21, CTZ. -/
def decodeS21 (u : Alu) (r : Raw) (g : Guard) : Dec :=
  let d := Port.ofByte r.d
  let a := Port.ofByte r.a
  let e := r.e
  build (kindErr (okSdst u.unit d) d
    ++ kindErr (okIsrc a) a
    ++ unusedErr r.b
    ++ unusedErr r.c
    ++ mustBe .malformed (r.x &&& 0x3FFFF#27 == 0#27)
    ++ mustBe .portKind (okEph e d)) (.ctz u g e d a)

/-- R47: code 0x22, POPC. -/
def decodeS22 (u : Alu) (r : Raw) (g : Guard) : Dec :=
  let d := Port.ofByte r.d
  let a := Port.ofByte r.a
  let e := r.e
  build (kindErr (okSdst u.unit d) d
    ++ kindErr (okIsrc a) a
    ++ unusedErr r.b
    ++ unusedErr r.c
    ++ mustBe .malformed (r.x &&& 0x3FFFF#27 == 0#27)
    ++ mustBe .portKind (okEph e d)) (.popc u g e d a)

/-- R47: code 0x23, BREV. -/
def decodeS23 (u : Alu) (r : Raw) (g : Guard) : Dec :=
  let d := Port.ofByte r.d
  let a := Port.ofByte r.a
  let e := r.e
  build (kindErr (okSdst u.unit d) d
    ++ kindErr (okIsrc a) a
    ++ unusedErr r.b
    ++ unusedErr r.c
    ++ mustBe .malformed (r.x &&& 0x3FFFF#27 == 0#27)
    ++ mustBe .portKind (okEph e d)) (.brev u g e d a)

/-- R47: code 0x24, EXT. -/
def decodeS24 (u : Alu) (r : Raw) (g : Guard) : Dec :=
  let d := Port.ofByte r.d
  let a := Port.ofByte r.a
  let sx := r.x.getLsbD 12
  let bpos := r.x.extractLsb' 6 6
  let len1 := r.x.extractLsb' 0 6
  let e := r.e
  build (kindErr (okSdst u.unit d) d
    ++ kindErr (okIsrc a) a
    ++ unusedErr r.b
    ++ unusedErr r.c
    ++ mustBe .malformed (r.x &&& 0x3E000#27 == 0#27)
    ++ mustBe .portKind (okEph e d)
    ++ mustBe .malformed (okField bpos len1)) (.ext u g e d a sx bpos len1)

/-- R47: code 0x25, INS. -/
def decodeS25 (u : Alu) (r : Raw) (g : Guard) : Dec :=
  let d := Port.ofByte r.d
  let a := Port.ofByte r.a
  let b := Port.ofByte r.b
  let bpos := r.x.extractLsb' 6 6
  let len1 := r.x.extractLsb' 0 6
  let e := r.e
  build (kindErr (okSdst u.unit d) d
    ++ kindErr (okIsrc a) a
    ++ kindErr (okIsrc b) b
    ++ unusedErr r.c
    ++ mustBe .malformed (r.x &&& 0x3F000#27 == 0#27)
    ++ mustBe .portKind (okEph e d)
    ++ mustBe .malformed (okField bpos len1)) (.ins u g e d a b bpos len1)

/-- R47: code 0x26, SEL. -/
def decodeS26 (u : Alu) (r : Raw) (g : Guard) : Dec :=
  let d := Port.ofByte r.d
  let a := Port.ofByte r.a
  let b := Port.ofByte r.b
  let c := Port.ofByte r.c
  let e := r.e
  build (kindErr (okSdst u.unit d) d
    ++ kindErr (okIsrc a) a
    ++ kindErr (okIsrc b) b
    ++ kindErr (okIsrc c) c
    ++ mustBe .malformed (r.x &&& 0x3FFFF#27 == 0#27)
    ++ mustBe .portKind (okEph e d)) (.sel u g e d a b c)

/-- R47: code 0x27, CMP. -/
def decodeS27 (u : Alu) (r : Raw) (g : Guard) : Dec :=
  let d := Port.ofByte r.d
  let a := Port.ofByte r.a
  let b := Port.ofByte r.b
  let condo := CmpCond.ofCode (r.x.extractLsb' 0 4)
  let cond := condo.getD CmpCond.first
  let e := r.e
  build (kindErr ((okSdst u.unit d || okPdst d)) d
    ++ kindErr (okIsrc a) a
    ++ kindErr (okIsrc b) b
    ++ unusedErr r.c
    ++ mustBe .malformed condo.isSome
    ++ mustBe .malformed (r.x &&& 0x3FFF0#27 == 0#27)
    ++ mustBe .portKind (okEph e d)) (.cmp u g e d a b cond)

/-- R47: code 0x28, LI. -/
def decodeS28 (u : Alu) (r : Raw) (g : Guard) : Dec :=
  let d := Port.ofByte r.d
  let imm := r.x.extractLsb' 0 27
  build (kindErr (okSdst u.unit d) d
    ++ unusedErr r.a
    ++ unusedErr r.b) (.li u g d imm)

/-- R47: code 0x29, LIH. -/
def decodeS29 (u : Alu) (r : Raw) (g : Guard) : Dec :=
  let d := Port.ofByte r.d
  let imm := r.wide
  build (kindErr (okSdst u.unit d) d
    ++ mustBe .malformed (r.wideHigh == 0)) (.lih u g d imm)

/-- R47: code 0x2A, MOV. -/
def decodeS2A (u : Alu) (r : Raw) (g : Guard) : Dec :=
  let d := Port.ofByte r.d
  let a := Port.ofByte r.a
  let e := r.e
  build (kindErr (okSdst u.unit d) d
    ++ kindErr (okIsrc a) a
    ++ unusedErr r.b
    ++ unusedErr r.c
    ++ mustBe .malformed (r.x &&& 0x3FFFF#27 == 0#27)
    ++ mustBe .portKind (okEph e d)) (.mov u g e d a)

/-- R47: code 0x30, PSET. -/
def decodeS30 (u : Alu) (r : Raw) (g : Guard) : Dec :=
  let d := Port.ofByte r.d
  let a := Port.ofByte r.a
  build (kindErr (okPdst d) d
    ++ kindErr (okIsrc a) a
    ++ unusedErr r.b
    ++ unusedErr r.c
    ++ mustBe .malformed (r.x &&& 0x3FFFF#27 == 0#27)
    ++ mustBe .portKind (!r.e)) (.pset u g d a)

/-- R47: code 0x31, PLOG. -/
def decodeS31 (u : Alu) (r : Raw) (g : Guard) : Dec :=
  let d := Port.ofByte r.d
  let a := Port.ofByte r.a
  let b := Port.ofByte r.b
  let tt := r.x.extractLsb' 0 4
  build (kindErr (okPdst d) d
    ++ kindErr (okPred a) a
    ++ kindErr (okPred b) b
    ++ unusedErr r.c
    ++ mustBe .malformed (r.x &&& 0x3FFF0#27 == 0#27)
    ++ mustBe .portKind (!r.e)) (.plog u g d a b tt)

/-- R47: code 0x40, FADD. -/
def decodeS40 (u : Alu) (r : Raw) (g : Guard) : Dec :=
  let d := Port.ofByte r.d
  let a := Port.ofByte r.a
  let b := Port.ofByte r.b
  let fmto := SD.ofCode (r.x.extractLsb' 14 4)
  let fmt := fmto.getD SD.first
  let rmo := Rnd.ofCode (r.x.extractLsb' 11 3)
  let rm := rmo.getD Rnd.first
  let e := r.e
  build (kindErr (okSdst u.unit d) d
    ++ kindErr (okFsrc a) a
    ++ kindErr (okFsrc b) b
    ++ unusedErr r.c
    ++ mustBe .format fmto.isSome
    ++ mustBe .malformed rmo.isSome
    ++ mustBe .malformed (r.x &&& 0x7FF#27 == 0#27)
    ++ mustBe .portKind (okEph e d)
    ++ mustBe .malformed (rm != .sr)) (.fadd u g e d a b fmt rm)

/-- R47: code 0x41, FSUB. -/
def decodeS41 (u : Alu) (r : Raw) (g : Guard) : Dec :=
  let d := Port.ofByte r.d
  let a := Port.ofByte r.a
  let b := Port.ofByte r.b
  let fmto := SD.ofCode (r.x.extractLsb' 14 4)
  let fmt := fmto.getD SD.first
  let rmo := Rnd.ofCode (r.x.extractLsb' 11 3)
  let rm := rmo.getD Rnd.first
  let e := r.e
  build (kindErr (okSdst u.unit d) d
    ++ kindErr (okFsrc a) a
    ++ kindErr (okFsrc b) b
    ++ unusedErr r.c
    ++ mustBe .format fmto.isSome
    ++ mustBe .malformed rmo.isSome
    ++ mustBe .malformed (r.x &&& 0x7FF#27 == 0#27)
    ++ mustBe .portKind (okEph e d)
    ++ mustBe .malformed (rm != .sr)) (.fsub u g e d a b fmt rm)

/-- R47: code 0x42, FMUL. -/
def decodeS42 (u : Alu) (r : Raw) (g : Guard) : Dec :=
  let d := Port.ofByte r.d
  let a := Port.ofByte r.a
  let b := Port.ofByte r.b
  let fmto := SD.ofCode (r.x.extractLsb' 14 4)
  let fmt := fmto.getD SD.first
  let rmo := Rnd.ofCode (r.x.extractLsb' 11 3)
  let rm := rmo.getD Rnd.first
  let e := r.e
  build (kindErr (okSdst u.unit d) d
    ++ kindErr (okFsrc a) a
    ++ kindErr (okFsrc b) b
    ++ unusedErr r.c
    ++ mustBe .format fmto.isSome
    ++ mustBe .malformed rmo.isSome
    ++ mustBe .malformed (r.x &&& 0x7FF#27 == 0#27)
    ++ mustBe .portKind (okEph e d)
    ++ mustBe .malformed (rm != .sr)) (.fmul u g e d a b fmt rm)

/-- R47: code 0x43, FFMA. -/
def decodeS43 (u : Alu) (r : Raw) (g : Guard) : Dec :=
  let d := Port.ofByte r.d
  let a := Port.ofByte r.a
  let b := Port.ofByte r.b
  let c := Port.ofByte r.c
  let fmto := SD.ofCode (r.x.extractLsb' 14 4)
  let fmt := fmto.getD SD.first
  let rmo := Rnd.ofCode (r.x.extractLsb' 11 3)
  let rm := rmo.getD Rnd.first
  let e := r.e
  build (kindErr (okSdst u.unit d) d
    ++ kindErr (okFsrc a) a
    ++ kindErr (okFsrc b) b
    ++ kindErr (okFsrc c) c
    ++ mustBe .format fmto.isSome
    ++ mustBe .malformed rmo.isSome
    ++ mustBe .malformed (r.x &&& 0x7FF#27 == 0#27)
    ++ mustBe .portKind (okEph e d)
    ++ mustBe .malformed (rm != .sr)) (.ffma u g e d a b c fmt rm)

/-- R47: code 0x44, FDIV. -/
def decodeS44 (u : Alu) (r : Raw) (g : Guard) : Dec :=
  let d := Port.ofByte r.d
  let a := Port.ofByte r.a
  let b := Port.ofByte r.b
  let fmto := SD.ofCode (r.x.extractLsb' 14 4)
  let fmt := fmto.getD SD.first
  let rmo := Rnd.ofCode (r.x.extractLsb' 11 3)
  let rm := rmo.getD Rnd.first
  let e := r.e
  build (kindErr (okSdst u.unit d) d
    ++ kindErr (okFsrc a) a
    ++ kindErr (okFsrc b) b
    ++ unusedErr r.c
    ++ mustBe .format fmto.isSome
    ++ mustBe .malformed rmo.isSome
    ++ mustBe .malformed (r.x &&& 0x7FF#27 == 0#27)
    ++ mustBe .portKind (okEph e d)
    ++ mustBe .malformed (rm != .sr)) (.fdiv u g e d a b fmt rm)

/-- R47: code 0x45, FSQRT. -/
def decodeS45 (u : Alu) (r : Raw) (g : Guard) : Dec :=
  let d := Port.ofByte r.d
  let a := Port.ofByte r.a
  let fmto := SD.ofCode (r.x.extractLsb' 14 4)
  let fmt := fmto.getD SD.first
  let rmo := Rnd.ofCode (r.x.extractLsb' 11 3)
  let rm := rmo.getD Rnd.first
  let e := r.e
  build (kindErr (okSdst u.unit d) d
    ++ kindErr (okFsrc a) a
    ++ unusedErr r.b
    ++ unusedErr r.c
    ++ mustBe .format fmto.isSome
    ++ mustBe .malformed rmo.isSome
    ++ mustBe .malformed (r.x &&& 0x7FF#27 == 0#27)
    ++ mustBe .portKind (okEph e d)
    ++ mustBe .malformed (rm != .sr)) (.fsqrt u g e d a fmt rm)

/-- R47: code 0x46, FMIN. -/
def decodeS46 (u : Alu) (r : Raw) (g : Guard) : Dec :=
  let d := Port.ofByte r.d
  let a := Port.ofByte r.a
  let b := Port.ofByte r.b
  let fmto := SD.ofCode (r.x.extractLsb' 14 4)
  let fmt := fmto.getD SD.first
  let e := r.e
  build (kindErr (okSdst u.unit d) d
    ++ kindErr (okFsrc a) a
    ++ kindErr (okFsrc b) b
    ++ unusedErr r.c
    ++ mustBe .format fmto.isSome
    ++ mustBe .malformed (r.x &&& 0x3FFF#27 == 0#27)
    ++ mustBe .portKind (okEph e d)) (.fmin u g e d a b fmt)

/-- R47: code 0x47, FMAX. -/
def decodeS47 (u : Alu) (r : Raw) (g : Guard) : Dec :=
  let d := Port.ofByte r.d
  let a := Port.ofByte r.a
  let b := Port.ofByte r.b
  let fmto := SD.ofCode (r.x.extractLsb' 14 4)
  let fmt := fmto.getD SD.first
  let e := r.e
  build (kindErr (okSdst u.unit d) d
    ++ kindErr (okFsrc a) a
    ++ kindErr (okFsrc b) b
    ++ unusedErr r.c
    ++ mustBe .format fmto.isSome
    ++ mustBe .malformed (r.x &&& 0x3FFF#27 == 0#27)
    ++ mustBe .portKind (okEph e d)) (.fmax u g e d a b fmt)

/-- R47: code 0x48, FCMP. -/
def decodeS48 (u : Alu) (r : Raw) (g : Guard) : Dec :=
  let d := Port.ofByte r.d
  let a := Port.ofByte r.a
  let b := Port.ofByte r.b
  let fmto := SD.ofCode (r.x.extractLsb' 14 4)
  let fmt := fmto.getD SD.first
  let condo := FCond.ofCode (r.x.extractLsb' 0 4)
  let cond := condo.getD FCond.first
  let e := r.e
  build (kindErr ((okSdst u.unit d || okPdst d)) d
    ++ kindErr (okFsrc a) a
    ++ kindErr (okFsrc b) b
    ++ unusedErr r.c
    ++ mustBe .format fmto.isSome
    ++ mustBe .malformed condo.isSome
    ++ mustBe .malformed (r.x &&& 0x3FF0#27 == 0#27)
    ++ mustBe .portKind (okEph e d)) (.fcmp u g e d a b fmt cond)

/-- R47: code 0x49, FCVT. -/
def decodeS49 (u : Alu) (r : Raw) (g : Guard) : Dec :=
  let d := Port.ofByte r.d
  let a := Port.ofByte r.a
  let dsto := Fmt.ofCode (r.x.extractLsb' 14 4)
  let dst := dsto.getD Fmt.first
  let rmo := Rnd.ofCode (r.x.extractLsb' 11 3)
  let rm := rmo.getD Rnd.first
  let srco := Fmt.ofCode (r.x.extractLsb' 7 4)
  let src := srco.getD Fmt.first
  let e := r.e
  build (kindErr (okSdst u.unit d) d
    ++ kindErr (okFsrc a) a
    ++ unusedErr r.b
    ++ unusedErr r.c
    ++ mustBe .format dsto.isSome
    ++ mustBe .malformed rmo.isSome
    ++ mustBe .format srco.isSome
    ++ mustBe .malformed (r.x &&& 0x7F#27 == 0#27)
    ++ mustBe .portKind (okEph e d)
    ++ mustBe .format (okFcvt dst src)
    ++ mustBe .malformed (rm != .sr)) (.fcvt u g e d a dst rm src)

/-- R47: code 0x50, HGET. -/
def decodeS50 (u : Alu) (r : Raw) (g : Guard) : Dec :=
  let d := Port.ofByte r.d
  let a := Port.ofByte r.a
  let sl := r.x.extractLsb' 0 5
  let e := r.e
  build (kindErr (okSdst u.unit d) d
    ++ kindErr (okHdl a) a
    ++ unusedErr r.b
    ++ unusedErr r.c
    ++ mustBe .malformed (r.x &&& 0x3FFE0#27 == 0#27)
    ++ mustBe .portKind (okEph e d)
    ++ mustBe .malformed (decide (sl.toNat < 19))) (.hget u g e d a sl)

/-- R47: code 0x51, HSET. -/
def decodeS51 (u : Alu) (r : Raw) (g : Guard) : Dec :=
  let d := Port.ofByte r.d
  let a := Port.ofByte r.a
  let b := Port.ofByte r.b
  let sl := r.x.extractLsb' 0 5
  build (kindErr (okHdl d) d
    ++ kindErr (okHdl a) a
    ++ kindErr (okIsrc b) b
    ++ unusedErr r.c
    ++ mustBe .malformed (r.x &&& 0x3FFE0#27 == 0#27)
    ++ mustBe .portKind (!r.e)
    ++ mustBe .malformed (decide (sl.toNat < 19))) (.hset u g d a b sl)

/-- R47: code 0x52, HADV. -/
def decodeS52 (u : Alu) (r : Raw) (g : Guard) : Dec :=
  let d := Port.ofByte r.d
  let a := Port.ofByte r.a
  let b := Port.ofByte r.b
  let dim := r.x.extractLsb' 0 2
  build (kindErr (okHdl d) d
    ++ kindErr (okHdl a) a
    ++ kindErr (okIsrc b) b
    ++ unusedErr r.c
    ++ mustBe .malformed (r.x &&& 0x3FFFC#27 == 0#27)
    ++ mustBe .portKind (!r.e)) (.hadv u g d a b dim)

/-- The S map (R47). -/
def decodeS (u : Alu) (r : Raw) (g : Guard) : Dec :=
  match r.op.toNat with
  | 0x01 => decodeS01 u r g
  | 0x02 => decodeS02 u r g
  | 0x03 => decodeS03 u r g
  | 0x04 => decodeS04 u r g
  | 0x05 => decodeS05 u r g
  | 0x06 => decodeS06 u r g
  | 0x07 => decodeS07 u r g
  | 0x08 => decodeS08 u r g
  | 0x09 => decodeS09 u r g
  | 0x0A => decodeS0A u r g
  | 0x10 => decodeS10 u r g
  | 0x11 => decodeS11 u r g
  | 0x12 => decodeS12 u r g
  | 0x13 => decodeS13 u r g
  | 0x14 => decodeS14 u r g
  | 0x15 => decodeS15 u r g
  | 0x16 => decodeS16 u r g
  | 0x17 => decodeS17 u r g
  | 0x18 => decodeS18 u r g
  | 0x19 => decodeS19 u r g
  | 0x1A => decodeS1A u r g
  | 0x1B => decodeS1B u r g
  | 0x20 => decodeS20 u r g
  | 0x21 => decodeS21 u r g
  | 0x22 => decodeS22 u r g
  | 0x23 => decodeS23 u r g
  | 0x24 => decodeS24 u r g
  | 0x25 => decodeS25 u r g
  | 0x26 => decodeS26 u r g
  | 0x27 => decodeS27 u r g
  | 0x28 => decodeS28 u r g
  | 0x29 => decodeS29 u r g
  | 0x2A => decodeS2A u r g
  | 0x30 => decodeS30 u r g
  | 0x31 => decodeS31 u r g
  | 0x40 => decodeS40 u r g
  | 0x41 => decodeS41 u r g
  | 0x42 => decodeS42 u r g
  | 0x43 => decodeS43 u r g
  | 0x44 => decodeS44 u r g
  | 0x45 => decodeS45 u r g
  | 0x46 => decodeS46 u r g
  | 0x47 => decodeS47 u r g
  | 0x48 => decodeS48 u r g
  | 0x49 => decodeS49 u r g
  | 0x50 => decodeS50 u r g
  | 0x51 => decodeS51 u r g
  | 0x52 => decodeS52 u r g
  | _ => .bad [.unassigned] none

/-- R48: code 0x01, LDS. -/
def decodeM01 (r : Raw) (g : Guard) : Dec :=
  let d := Port.ofByte r.d
  let a := Port.ofByte r.a
  let c := Port.ofByte r.c
  let sz := r.x.extractLsb' 13 2
  let sx := r.x.getLsbD 12
  let off := r.x.extractLsb' 0 12
  let e := r.e
  build (kindErr (okSdst .ag d) d
    ++ kindErr (okIsrc a) a
    ++ unusedErr r.b
    ++ kindErr (okIsrc c) c
    ++ mustBe .malformed (r.x &&& 0x38000#27 == 0#27)
    ++ mustBe .portKind (okEph e d)) (.lds g e d a c sz sx off)

/-- R48: code 0x02, STS. -/
def decodeM02 (r : Raw) (g : Guard) : Dec :=
  let a := Port.ofByte r.a
  let b := Port.ofByte r.b
  let c := Port.ofByte r.c
  let sz := r.x.extractLsb' 13 2
  let off := r.x.extractLsb' 0 12
  build (unusedErr r.d
    ++ kindErr (okIsrc a) a
    ++ kindErr (okIsrc b) b
    ++ kindErr (okIsrc c) c
    ++ mustBe .malformed (r.x &&& 0x39000#27 == 0#27)
    ++ mustBe .malformed (!r.e)) (.sts g a b c sz off)

/-- R48: code 0x08, TLD. -/
def decodeM08 (r : Raw) (g : Guard) : Dec :=
  let d := Port.ofByte r.d
  let a := Port.ofByte r.a
  let b := Port.ofByte r.b
  let c := Port.ofByte r.c
  build (kindErr (okBob d) d
    ++ kindErr (okHdl a) a
    ++ kindErr (okIsrc b) b
    ++ kindErr (okFlgz c) c
    ++ mustBe .malformed (r.x &&& 0x3FFFF#27 == 0#27)
    ++ mustBe .portKind (!r.e)) (.tld g d a b c)

/-- R48: code 0x09, TST. -/
def decodeM09 (r : Raw) (g : Guard) : Dec :=
  let d := Port.ofByte r.d
  let a := Port.ofByte r.a
  let b := Port.ofByte r.b
  let c := Port.ofByte r.c
  build (kindErr (okFlgz d) d
    ++ kindErr (okHdl a) a
    ++ kindErr (okIsrc b) b
    ++ kindErr (okBob c) c
    ++ mustBe .malformed (r.x &&& 0x3FFFF#27 == 0#27)
    ++ mustBe .portKind (!r.e)) (.tst g d a b c)

/-- R48: code 0x0A, TLDG. -/
def decodeM0A (r : Raw) (g : Guard) : Dec :=
  let d := Port.ofByte r.d
  let a := Port.ofByte r.a
  let b := Port.ofByte r.b
  let c := Port.ofByte r.c
  build (kindErr (okBob d) d
    ++ kindErr (okHdl a) a
    ++ kindErr (okIsrc b) b
    ++ kindErr (okFlgz c) c
    ++ mustBe .malformed (r.x &&& 0x3FFFF#27 == 0#27)
    ++ mustBe .portKind (!r.e)) (.tldg g d a b c)

/-- R48: code 0x0B, TSTS. -/
def decodeM0B (r : Raw) (g : Guard) : Dec :=
  let d := Port.ofByte r.d
  let a := Port.ofByte r.a
  let b := Port.ofByte r.b
  let c := Port.ofByte r.c
  build (kindErr (okFlgz d) d
    ++ kindErr (okHdl a) a
    ++ kindErr (okIsrc b) b
    ++ kindErr (okBob c) c
    ++ mustBe .malformed (r.x &&& 0x3FFFF#27 == 0#27)
    ++ mustBe .portKind (!r.e)) (.tsts g d a b c)

/-- R48: code 0x10, ATOM_ADD. -/
def decodeM10 (r : Raw) (g : Guard) : Dec :=
  let d := Port.ofByte r.d
  let a := Port.ofByte r.a
  let b := Port.ofByte r.b
  let sco := Scope.ofCode (r.x.extractLsb' 15 3)
  let sc := sco.getD Scope.first
  let lvlo := Lvl.ofCode (r.x.extractLsb' 13 2)
  let lvl := lvlo.getD Lvl.first
  let q64 := r.x.getLsbD 12
  let off := r.x.extractLsb' 0 11
  let e := r.e
  build (kindErr (okSdst .ag d) d
    ++ kindErr (okIsrc a) a
    ++ kindErr (okIsrc b) b
    ++ unusedErr r.c
    ++ mustBe .malformed sco.isSome
    ++ mustBe .malformed lvlo.isSome
    ++ mustBe .malformed (r.x &&& 0x800#27 == 0#27)
    ++ mustBe .portKind (okEph e d)) (.atomAdd g e d a b sc lvl q64 off)

/-- R48: code 0x11, ATOM_INC. -/
def decodeM11 (r : Raw) (g : Guard) : Dec :=
  let d := Port.ofByte r.d
  let a := Port.ofByte r.a
  let b := Port.ofByte r.b
  let sco := Scope.ofCode (r.x.extractLsb' 15 3)
  let sc := sco.getD Scope.first
  let lvlo := Lvl.ofCode (r.x.extractLsb' 13 2)
  let lvl := lvlo.getD Lvl.first
  let q64 := r.x.getLsbD 12
  let off := r.x.extractLsb' 0 11
  let e := r.e
  build (kindErr (okSdst .ag d) d
    ++ kindErr (okIsrc a) a
    ++ kindErr (okIsrc b) b
    ++ unusedErr r.c
    ++ mustBe .malformed sco.isSome
    ++ mustBe .malformed lvlo.isSome
    ++ mustBe .malformed (r.x &&& 0x800#27 == 0#27)
    ++ mustBe .portKind (okEph e d)) (.atomInc g e d a b sc lvl q64 off)

/-- R48: code 0x12, ATOM_DEC. -/
def decodeM12 (r : Raw) (g : Guard) : Dec :=
  let d := Port.ofByte r.d
  let a := Port.ofByte r.a
  let b := Port.ofByte r.b
  let sco := Scope.ofCode (r.x.extractLsb' 15 3)
  let sc := sco.getD Scope.first
  let lvlo := Lvl.ofCode (r.x.extractLsb' 13 2)
  let lvl := lvlo.getD Lvl.first
  let q64 := r.x.getLsbD 12
  let off := r.x.extractLsb' 0 11
  let e := r.e
  build (kindErr (okSdst .ag d) d
    ++ kindErr (okIsrc a) a
    ++ kindErr (okIsrc b) b
    ++ unusedErr r.c
    ++ mustBe .malformed sco.isSome
    ++ mustBe .malformed lvlo.isSome
    ++ mustBe .malformed (r.x &&& 0x800#27 == 0#27)
    ++ mustBe .portKind (okEph e d)) (.atomDec g e d a b sc lvl q64 off)

/-- R48: code 0x13, ATOM_MIN. -/
def decodeM13 (r : Raw) (g : Guard) : Dec :=
  let d := Port.ofByte r.d
  let a := Port.ofByte r.a
  let b := Port.ofByte r.b
  let sco := Scope.ofCode (r.x.extractLsb' 15 3)
  let sc := sco.getD Scope.first
  let lvlo := Lvl.ofCode (r.x.extractLsb' 13 2)
  let lvl := lvlo.getD Lvl.first
  let q64 := r.x.getLsbD 12
  let uns := r.x.getLsbD 11
  let off := r.x.extractLsb' 0 11
  let e := r.e
  build (kindErr (okSdst .ag d) d
    ++ kindErr (okIsrc a) a
    ++ kindErr (okIsrc b) b
    ++ unusedErr r.c
    ++ mustBe .malformed sco.isSome
    ++ mustBe .malformed lvlo.isSome
    ++ mustBe .portKind (okEph e d)) (.atomMin g e d a b sc lvl q64 uns off)

/-- R48: code 0x14, ATOM_MAX. -/
def decodeM14 (r : Raw) (g : Guard) : Dec :=
  let d := Port.ofByte r.d
  let a := Port.ofByte r.a
  let b := Port.ofByte r.b
  let sco := Scope.ofCode (r.x.extractLsb' 15 3)
  let sc := sco.getD Scope.first
  let lvlo := Lvl.ofCode (r.x.extractLsb' 13 2)
  let lvl := lvlo.getD Lvl.first
  let q64 := r.x.getLsbD 12
  let uns := r.x.getLsbD 11
  let off := r.x.extractLsb' 0 11
  let e := r.e
  build (kindErr (okSdst .ag d) d
    ++ kindErr (okIsrc a) a
    ++ kindErr (okIsrc b) b
    ++ unusedErr r.c
    ++ mustBe .malformed sco.isSome
    ++ mustBe .malformed lvlo.isSome
    ++ mustBe .portKind (okEph e d)) (.atomMax g e d a b sc lvl q64 uns off)

/-- R48: code 0x15, ATOM_AND. -/
def decodeM15 (r : Raw) (g : Guard) : Dec :=
  let d := Port.ofByte r.d
  let a := Port.ofByte r.a
  let b := Port.ofByte r.b
  let sco := Scope.ofCode (r.x.extractLsb' 15 3)
  let sc := sco.getD Scope.first
  let lvlo := Lvl.ofCode (r.x.extractLsb' 13 2)
  let lvl := lvlo.getD Lvl.first
  let q64 := r.x.getLsbD 12
  let off := r.x.extractLsb' 0 11
  let e := r.e
  build (kindErr (okSdst .ag d) d
    ++ kindErr (okIsrc a) a
    ++ kindErr (okIsrc b) b
    ++ unusedErr r.c
    ++ mustBe .malformed sco.isSome
    ++ mustBe .malformed lvlo.isSome
    ++ mustBe .malformed (r.x &&& 0x800#27 == 0#27)
    ++ mustBe .portKind (okEph e d)) (.atomAnd g e d a b sc lvl q64 off)

/-- R48: code 0x16, ATOM_OR. -/
def decodeM16 (r : Raw) (g : Guard) : Dec :=
  let d := Port.ofByte r.d
  let a := Port.ofByte r.a
  let b := Port.ofByte r.b
  let sco := Scope.ofCode (r.x.extractLsb' 15 3)
  let sc := sco.getD Scope.first
  let lvlo := Lvl.ofCode (r.x.extractLsb' 13 2)
  let lvl := lvlo.getD Lvl.first
  let q64 := r.x.getLsbD 12
  let off := r.x.extractLsb' 0 11
  let e := r.e
  build (kindErr (okSdst .ag d) d
    ++ kindErr (okIsrc a) a
    ++ kindErr (okIsrc b) b
    ++ unusedErr r.c
    ++ mustBe .malformed sco.isSome
    ++ mustBe .malformed lvlo.isSome
    ++ mustBe .malformed (r.x &&& 0x800#27 == 0#27)
    ++ mustBe .portKind (okEph e d)) (.atomOr g e d a b sc lvl q64 off)

/-- R48: code 0x17, ATOM_XOR. -/
def decodeM17 (r : Raw) (g : Guard) : Dec :=
  let d := Port.ofByte r.d
  let a := Port.ofByte r.a
  let b := Port.ofByte r.b
  let sco := Scope.ofCode (r.x.extractLsb' 15 3)
  let sc := sco.getD Scope.first
  let lvlo := Lvl.ofCode (r.x.extractLsb' 13 2)
  let lvl := lvlo.getD Lvl.first
  let q64 := r.x.getLsbD 12
  let off := r.x.extractLsb' 0 11
  let e := r.e
  build (kindErr (okSdst .ag d) d
    ++ kindErr (okIsrc a) a
    ++ kindErr (okIsrc b) b
    ++ unusedErr r.c
    ++ mustBe .malformed sco.isSome
    ++ mustBe .malformed lvlo.isSome
    ++ mustBe .malformed (r.x &&& 0x800#27 == 0#27)
    ++ mustBe .portKind (okEph e d)) (.atomXor g e d a b sc lvl q64 off)

/-- R48: code 0x18, ATOM_XCHG. -/
def decodeM18 (r : Raw) (g : Guard) : Dec :=
  let d := Port.ofByte r.d
  let a := Port.ofByte r.a
  let b := Port.ofByte r.b
  let sco := Scope.ofCode (r.x.extractLsb' 15 3)
  let sc := sco.getD Scope.first
  let lvlo := Lvl.ofCode (r.x.extractLsb' 13 2)
  let lvl := lvlo.getD Lvl.first
  let q64 := r.x.getLsbD 12
  let off := r.x.extractLsb' 0 11
  let e := r.e
  build (kindErr (okSdst .ag d) d
    ++ kindErr (okIsrc a) a
    ++ kindErr (okIsrc b) b
    ++ unusedErr r.c
    ++ mustBe .malformed sco.isSome
    ++ mustBe .malformed lvlo.isSome
    ++ mustBe .malformed (r.x &&& 0x800#27 == 0#27)
    ++ mustBe .portKind (okEph e d)) (.atomXchg g e d a b sc lvl q64 off)

/-- R48: code 0x19, ATOM_CAS. -/
def decodeM19 (r : Raw) (g : Guard) : Dec :=
  let d := Port.ofByte r.d
  let a := Port.ofByte r.a
  let b := Port.ofByte r.b
  let c := Port.ofByte r.c
  let sco := Scope.ofCode (r.x.extractLsb' 15 3)
  let sc := sco.getD Scope.first
  let lvlo := Lvl.ofCode (r.x.extractLsb' 13 2)
  let lvl := lvlo.getD Lvl.first
  let q64 := r.x.getLsbD 12
  let off := r.x.extractLsb' 0 11
  let e := r.e
  build (kindErr (okSdst .ag d) d
    ++ kindErr (okIsrc a) a
    ++ kindErr (okIsrc b) b
    ++ kindErr (okIsrc c) c
    ++ mustBe .malformed sco.isSome
    ++ mustBe .malformed lvlo.isSome
    ++ mustBe .malformed (r.x &&& 0x800#27 == 0#27)
    ++ mustBe .portKind (okEph e d)) (.atomCas g e d a b c sc lvl q64 off)

/-- R48: code 0x1C, FENCE. -/
def decodeM1C (r : Raw) (g : Guard) : Dec :=
  let sco := Scope.ofCode (r.x.extractLsb' 15 3)
  let sc := sco.getD Scope.first
  build (unusedErr r.d
    ++ unusedErr r.a
    ++ unusedErr r.b
    ++ unusedErr r.c
    ++ mustBe .malformed sco.isSome
    ++ mustBe .malformed (r.x &&& 0x7FFF#27 == 0#27)
    ++ mustBe .malformed (!r.e)) (.fence g sc)

/-- R48: code 0x20, BSET. -/
def decodeM20 (r : Raw) (g : Guard) : Dec :=
  let d := Port.ofByte r.d
  let a := Port.ofByte r.a
  let b := Port.ofByte r.b
  build (kindErr (okBob d) d
    ++ kindErr (okIsrc a) a
    ++ kindErr (okIsrc b) b
    ++ unusedErr r.c
    ++ mustBe .malformed (r.x &&& 0x3FFFF#27 == 0#27)
    ++ mustBe .portKind (!r.e)) (.bset g d a b)

/-- R48: code 0x21, BPUSH. -/
def decodeM21 (r : Raw) (g : Guard) : Dec :=
  let d := Port.ofByte r.d
  let a := Port.ofByte r.a
  build (kindErr (okBob d) d
    ++ kindErr (okIsrc a) a
    ++ unusedErr r.b
    ++ unusedErr r.c
    ++ mustBe .malformed (r.x &&& 0x3FFFF#27 == 0#27)
    ++ mustBe .portKind (!r.e)) (.bpush g d a)

/-- R48: code 0x22, BPOP. -/
def decodeM22 (r : Raw) (g : Guard) : Dec :=
  let d := Port.ofByte r.d
  let a := Port.ofByte r.a
  build (kindErr (okBob d) d
    ++ kindErr (okIsrc a) a
    ++ unusedErr r.b
    ++ unusedErr r.c
    ++ mustBe .malformed (r.x &&& 0x3FFFF#27 == 0#27)
    ++ mustBe .portKind (!r.e)) (.bpop g d a)

/-- R48: code 0x23, BQRY. -/
def decodeM23 (r : Raw) (g : Guard) : Dec :=
  let d := Port.ofByte r.d
  let a := Port.ofByte r.a
  let sl := r.x.extractLsb' 0 3
  let e := r.e
  build (kindErr (okSdst .ag d) d
    ++ kindErr (okBob a) a
    ++ unusedErr r.b
    ++ unusedErr r.c
    ++ mustBe .malformed (r.x &&& 0x3FFF8#27 == 0#27)
    ++ mustBe .portKind (okEph e d)
    ++ mustBe .malformed (decide (sl.toNat < 4))) (.bqry g e d a sl)

/-- The M map (R48). -/
def decodeM (r : Raw) (g : Guard) : Dec :=
  match r.op.toNat with
  | 0x01 => decodeM01 r g
  | 0x02 => decodeM02 r g
  | 0x08 => decodeM08 r g
  | 0x09 => decodeM09 r g
  | 0x0A => decodeM0A r g
  | 0x0B => decodeM0B r g
  | 0x10 => decodeM10 r g
  | 0x11 => decodeM11 r g
  | 0x12 => decodeM12 r g
  | 0x13 => decodeM13 r g
  | 0x14 => decodeM14 r g
  | 0x15 => decodeM15 r g
  | 0x16 => decodeM16 r g
  | 0x17 => decodeM17 r g
  | 0x18 => decodeM18 r g
  | 0x19 => decodeM19 r g
  | 0x1C => decodeM1C r g
  | 0x20 => decodeM20 r g
  | 0x21 => decodeM21 r g
  | 0x22 => decodeM22 r g
  | 0x23 => decodeM23 r g
  | _ => .bad [.unassigned] none

/-- R49: code 0x01, VADD. -/
def decodeV01 (r : Raw) (g : Guard) : Dec :=
  let d := Port.ofByte r.d
  let a := Port.ofByte r.a
  let b := Port.ofByte r.b
  let rmo := Rnd.ofCode (r.x.extractLsb' 11 3)
  let rm := rmo.getD Rnd.first
  let rf := r.x.extractLsb' 5 6
  let nl := r.x.extractLsb' 0 5
  build (kindErr (okTile d) d
    ++ kindErr (okVop a) a
    ++ kindErr (okVop b) b
    ++ unusedErr r.c
    ++ mustBe .malformed rmo.isSome
    ++ mustBe .malformed (r.x &&& 0x3C000#27 == 0#27)
    ++ mustBe .portKind (!r.e)
    ++ mustBe .malformed (rm != .sr)
    ++ mustBe .malformed (okRange rf nl)) (.vadd g d a b rm rf nl)

/-- R49: code 0x02, VSUB. -/
def decodeV02 (r : Raw) (g : Guard) : Dec :=
  let d := Port.ofByte r.d
  let a := Port.ofByte r.a
  let b := Port.ofByte r.b
  let rmo := Rnd.ofCode (r.x.extractLsb' 11 3)
  let rm := rmo.getD Rnd.first
  let rf := r.x.extractLsb' 5 6
  let nl := r.x.extractLsb' 0 5
  build (kindErr (okTile d) d
    ++ kindErr (okVop a) a
    ++ kindErr (okVop b) b
    ++ unusedErr r.c
    ++ mustBe .malformed rmo.isSome
    ++ mustBe .malformed (r.x &&& 0x3C000#27 == 0#27)
    ++ mustBe .portKind (!r.e)
    ++ mustBe .malformed (rm != .sr)
    ++ mustBe .malformed (okRange rf nl)) (.vsub g d a b rm rf nl)

/-- R49: code 0x03, VMUL. -/
def decodeV03 (r : Raw) (g : Guard) : Dec :=
  let d := Port.ofByte r.d
  let a := Port.ofByte r.a
  let b := Port.ofByte r.b
  let rmo := Rnd.ofCode (r.x.extractLsb' 11 3)
  let rm := rmo.getD Rnd.first
  let rf := r.x.extractLsb' 5 6
  let nl := r.x.extractLsb' 0 5
  build (kindErr (okTile d) d
    ++ kindErr (okVop a) a
    ++ kindErr (okVop b) b
    ++ unusedErr r.c
    ++ mustBe .malformed rmo.isSome
    ++ mustBe .malformed (r.x &&& 0x3C000#27 == 0#27)
    ++ mustBe .portKind (!r.e)
    ++ mustBe .malformed (rm != .sr)
    ++ mustBe .malformed (okRange rf nl)) (.vmul g d a b rm rf nl)

/-- R49: code 0x04, VFMA. -/
def decodeV04 (r : Raw) (g : Guard) : Dec :=
  let d := Port.ofByte r.d
  let a := Port.ofByte r.a
  let b := Port.ofByte r.b
  let c := Port.ofByte r.c
  let rmo := Rnd.ofCode (r.x.extractLsb' 11 3)
  let rm := rmo.getD Rnd.first
  let rf := r.x.extractLsb' 5 6
  let nl := r.x.extractLsb' 0 5
  build (kindErr (okTile d) d
    ++ kindErr (okVop a) a
    ++ kindErr (okVop b) b
    ++ kindErr (okVop c) c
    ++ mustBe .malformed rmo.isSome
    ++ mustBe .malformed (r.x &&& 0x3C000#27 == 0#27)
    ++ mustBe .portKind (!r.e)
    ++ mustBe .malformed (rm != .sr)
    ++ mustBe .malformed (okRange rf nl)) (.vfma g d a b c rm rf nl)

/-- R49: code 0x05, VMIN. -/
def decodeV05 (r : Raw) (g : Guard) : Dec :=
  let d := Port.ofByte r.d
  let a := Port.ofByte r.a
  let b := Port.ofByte r.b
  let rf := r.x.extractLsb' 5 6
  let nl := r.x.extractLsb' 0 5
  build (kindErr (okTile d) d
    ++ kindErr (okVop a) a
    ++ kindErr (okVop b) b
    ++ unusedErr r.c
    ++ mustBe .malformed (r.x &&& 0x3F800#27 == 0#27)
    ++ mustBe .portKind (!r.e)
    ++ mustBe .malformed (okRange rf nl)) (.vmin g d a b rf nl)

/-- R49: code 0x06, VMAX. -/
def decodeV06 (r : Raw) (g : Guard) : Dec :=
  let d := Port.ofByte r.d
  let a := Port.ofByte r.a
  let b := Port.ofByte r.b
  let rf := r.x.extractLsb' 5 6
  let nl := r.x.extractLsb' 0 5
  build (kindErr (okTile d) d
    ++ kindErr (okVop a) a
    ++ kindErr (okVop b) b
    ++ unusedErr r.c
    ++ mustBe .malformed (r.x &&& 0x3F800#27 == 0#27)
    ++ mustBe .portKind (!r.e)
    ++ mustBe .malformed (okRange rf nl)) (.vmax g d a b rf nl)

/-- R49: code 0x07, VABS. -/
def decodeV07 (r : Raw) (g : Guard) : Dec :=
  let d := Port.ofByte r.d
  let a := Port.ofByte r.a
  let rf := r.x.extractLsb' 5 6
  let nl := r.x.extractLsb' 0 5
  build (kindErr (okTile d) d
    ++ kindErr (okVop a) a
    ++ unusedErr r.b
    ++ unusedErr r.c
    ++ mustBe .malformed (r.x &&& 0x3F800#27 == 0#27)
    ++ mustBe .portKind (!r.e)
    ++ mustBe .malformed (okRange rf nl)) (.vabs g d a rf nl)

/-- R49: code 0x08, VNEG. -/
def decodeV08 (r : Raw) (g : Guard) : Dec :=
  let d := Port.ofByte r.d
  let a := Port.ofByte r.a
  let rf := r.x.extractLsb' 5 6
  let nl := r.x.extractLsb' 0 5
  build (kindErr (okTile d) d
    ++ kindErr (okVop a) a
    ++ unusedErr r.b
    ++ unusedErr r.c
    ++ mustBe .malformed (r.x &&& 0x3F800#27 == 0#27)
    ++ mustBe .portKind (!r.e)
    ++ mustBe .malformed (okRange rf nl)) (.vneg g d a rf nl)

/-- R49: code 0x09, VCMP. -/
def decodeV09 (r : Raw) (g : Guard) : Dec :=
  let d := Port.ofByte r.d
  let a := Port.ofByte r.a
  let b := Port.ofByte r.b
  let condo := VCond.ofCode (r.x.extractLsb' 14 4)
  let cond := condo.getD VCond.first
  let rf := r.x.extractLsb' 5 6
  let nl := r.x.extractLsb' 0 5
  build (kindErr (okTile d) d
    ++ kindErr (okVop a) a
    ++ kindErr (okVop b) b
    ++ unusedErr r.c
    ++ mustBe .malformed condo.isSome
    ++ mustBe .malformed (r.x &&& 0x3800#27 == 0#27)
    ++ mustBe .portKind (!r.e)
    ++ mustBe .malformed (okRange rf nl)) (.vcmp g d a b cond rf nl)

/-- R49: code 0x0A, VSEL. -/
def decodeV0A (r : Raw) (g : Guard) : Dec :=
  let d := Port.ofByte r.d
  let a := Port.ofByte r.a
  let b := Port.ofByte r.b
  let c := Port.ofByte r.c
  let rf := r.x.extractLsb' 5 6
  let nl := r.x.extractLsb' 0 5
  build (kindErr (okTile d) d
    ++ kindErr (okVop a) a
    ++ kindErr (okVop b) b
    ++ kindErr (okVop c) c
    ++ mustBe .malformed (r.x &&& 0x3F800#27 == 0#27)
    ++ mustBe .portKind (!r.e)
    ++ mustBe .malformed (okRange rf nl)) (.vsel g d a b c rf nl)

/-- R49: code 0x10, VAND. -/
def decodeV10 (r : Raw) (g : Guard) : Dec :=
  let d := Port.ofByte r.d
  let a := Port.ofByte r.a
  let b := Port.ofByte r.b
  let rf := r.x.extractLsb' 5 6
  let nl := r.x.extractLsb' 0 5
  build (kindErr (okTile d) d
    ++ kindErr (okVop a) a
    ++ kindErr (okVop b) b
    ++ unusedErr r.c
    ++ mustBe .malformed (r.x &&& 0x3F800#27 == 0#27)
    ++ mustBe .portKind (!r.e)
    ++ mustBe .malformed (okRange rf nl)) (.vand g d a b rf nl)

/-- R49: code 0x11, VOR. -/
def decodeV11 (r : Raw) (g : Guard) : Dec :=
  let d := Port.ofByte r.d
  let a := Port.ofByte r.a
  let b := Port.ofByte r.b
  let rf := r.x.extractLsb' 5 6
  let nl := r.x.extractLsb' 0 5
  build (kindErr (okTile d) d
    ++ kindErr (okVop a) a
    ++ kindErr (okVop b) b
    ++ unusedErr r.c
    ++ mustBe .malformed (r.x &&& 0x3F800#27 == 0#27)
    ++ mustBe .portKind (!r.e)
    ++ mustBe .malformed (okRange rf nl)) (.vor g d a b rf nl)

/-- R49: code 0x12, VXOR. -/
def decodeV12 (r : Raw) (g : Guard) : Dec :=
  let d := Port.ofByte r.d
  let a := Port.ofByte r.a
  let b := Port.ofByte r.b
  let rf := r.x.extractLsb' 5 6
  let nl := r.x.extractLsb' 0 5
  build (kindErr (okTile d) d
    ++ kindErr (okVop a) a
    ++ kindErr (okVop b) b
    ++ unusedErr r.c
    ++ mustBe .malformed (r.x &&& 0x3F800#27 == 0#27)
    ++ mustBe .portKind (!r.e)
    ++ mustBe .malformed (okRange rf nl)) (.vxor g d a b rf nl)

/-- R49: code 0x13, VSHL. -/
def decodeV13 (r : Raw) (g : Guard) : Dec :=
  let d := Port.ofByte r.d
  let a := Port.ofByte r.a
  let b := Port.ofByte r.b
  let rf := r.x.extractLsb' 5 6
  let nl := r.x.extractLsb' 0 5
  build (kindErr (okTile d) d
    ++ kindErr (okVop a) a
    ++ kindErr (okVop b) b
    ++ unusedErr r.c
    ++ mustBe .malformed (r.x &&& 0x3F800#27 == 0#27)
    ++ mustBe .portKind (!r.e)
    ++ mustBe .malformed (okRange rf nl)) (.vshl g d a b rf nl)

/-- R49: code 0x14, VSHR. -/
def decodeV14 (r : Raw) (g : Guard) : Dec :=
  let d := Port.ofByte r.d
  let a := Port.ofByte r.a
  let b := Port.ofByte r.b
  let ar := r.x.getLsbD 14
  let rf := r.x.extractLsb' 5 6
  let nl := r.x.extractLsb' 0 5
  build (kindErr (okTile d) d
    ++ kindErr (okVop a) a
    ++ kindErr (okVop b) b
    ++ unusedErr r.c
    ++ mustBe .malformed (r.x &&& 0x3B800#27 == 0#27)
    ++ mustBe .portKind (!r.e)
    ++ mustBe .malformed (okRange rf nl)) (.vshr g d a b ar rf nl)

/-- R49: code 0x18, VCVT. -/
def decodeV18 (r : Raw) (g : Guard) : Dec :=
  let d := Port.ofByte r.d
  let a := Port.ofByte r.a
  let b := Port.ofByte r.b
  let fmto := Fmt.ofCode (r.x.extractLsb' 14 4)
  let fmt := fmto.getD Fmt.first
  let rmo := Rnd.ofCode (r.x.extractLsb' 11 3)
  let rm := rmo.getD Rnd.first
  let rf := r.x.extractLsb' 5 6
  let nl := r.x.extractLsb' 0 5
  build (kindErr (okTile d) d
    ++ kindErr (okTile a) a
    ++ kindErr (okFsrc b) b
    ++ unusedErr r.c
    ++ mustBe .format fmto.isSome
    ++ mustBe .malformed rmo.isSome
    ++ mustBe .portKind (!r.e)
    ++ mustBe .format (okVcvtFmt fmt)
    ++ mustBe .malformed ((rm != .sr || okSrFmt fmt))
    ++ mustBe .malformed (okRange rf nl)) (.vcvt g d a b fmt rm rf nl)

/-- R49: code 0x19, VQNT. -/
def decodeV19 (r : Raw) (g : Guard) : Dec :=
  let d := Port.ofByte r.d
  let a := Port.ofByte r.a
  let b := Port.ofByte r.b
  let fmto := Fmt.ofCode (r.x.extractLsb' 14 4)
  let fmt := fmto.getD Fmt.first
  let rmo := Rnd.ofCode (r.x.extractLsb' 11 3)
  let rm := rmo.getD Rnd.first
  let rf := r.x.extractLsb' 5 6
  let nl := r.x.extractLsb' 0 5
  build (kindErr (okTile d) d
    ++ kindErr (okTile a) a
    ++ kindErr (okTilez b) b
    ++ unusedErr r.c
    ++ mustBe .format fmto.isSome
    ++ mustBe .malformed rmo.isSome
    ++ mustBe .portKind (!r.e)
    ++ mustBe .malformed (rm != .sr)
    ++ mustBe .format (okQntFmt fmt)
    ++ kindErr (!(fmto.isSome && okQntFmt fmt) || okParam fmt b) b
    ++ mustBe .malformed (okRange rf nl)) (.vqnt g d a b fmt rm rf nl)

/-- R49: code 0x1A, VDQ. -/
def decodeV1A (r : Raw) (g : Guard) : Dec :=
  let d := Port.ofByte r.d
  let a := Port.ofByte r.a
  let b := Port.ofByte r.b
  let c := Port.ofByte r.c
  let fmto := Fmt.ofCode (r.x.extractLsb' 14 4)
  let fmt := fmto.getD Fmt.first
  let rmo := Rnd.ofCode (r.x.extractLsb' 11 3)
  let rm := rmo.getD Rnd.first
  let rf := r.x.extractLsb' 5 6
  let nl := r.x.extractLsb' 0 5
  build (kindErr (okTile d) d
    ++ kindErr (okTile a) a
    ++ kindErr (okTilez b) b
    ++ kindErr (okFsrc c) c
    ++ mustBe .format fmto.isSome
    ++ mustBe .malformed rmo.isSome
    ++ mustBe .portKind (!r.e)
    ++ mustBe .malformed (rm != .sr)
    ++ mustBe .format (okVdqFmt fmt)
    ++ kindErr (!(fmto.isSome && okVdqFmt fmt) || okParam fmt b) b
    ++ mustBe .malformed (okRange rf nl)) (.vdq g d a b c fmt rm rf nl)

/-- R49: code 0x1C, VADDP8. -/
def decodeV1C (r : Raw) (g : Guard) : Dec :=
  let d := Port.ofByte r.d
  let a := Port.ofByte r.a
  let b := Port.ofByte r.b
  let fmto := Fmt.ofCode (r.x.extractLsb' 14 4)
  let fmt := fmto.getD Fmt.first
  let rf := r.x.extractLsb' 5 6
  let nl := r.x.extractLsb' 0 5
  build (kindErr (okTile d) d
    ++ kindErr (okVop a) a
    ++ kindErr (okVop b) b
    ++ unusedErr r.c
    ++ mustBe .format fmto.isSome
    ++ mustBe .malformed (r.x &&& 0x3800#27 == 0#27)
    ++ mustBe .portKind (!r.e)
    ++ mustBe .format (fmt.isFp8)
    ++ mustBe .malformed (okRange rf nl)) (.vaddp8 g d a b fmt rf nl)

/-- R49: code 0x1D, VMULP8. -/
def decodeV1D (r : Raw) (g : Guard) : Dec :=
  let d := Port.ofByte r.d
  let a := Port.ofByte r.a
  let b := Port.ofByte r.b
  let fmto := Fmt.ofCode (r.x.extractLsb' 14 4)
  let fmt := fmto.getD Fmt.first
  let rf := r.x.extractLsb' 5 6
  let nl := r.x.extractLsb' 0 5
  build (kindErr (okTile d) d
    ++ kindErr (okVop a) a
    ++ kindErr (okVop b) b
    ++ unusedErr r.c
    ++ mustBe .format fmto.isSome
    ++ mustBe .malformed (r.x &&& 0x3800#27 == 0#27)
    ++ mustBe .portKind (!r.e)
    ++ mustBe .format (fmt.isFp8)
    ++ mustBe .malformed (okRange rf nl)) (.vmulp8 g d a b fmt rf nl)

/-- R49: code 0x20, VBCAST. -/
def decodeV20 (r : Raw) (g : Guard) : Dec :=
  let d := Port.ofByte r.d
  let a := Port.ofByte r.a
  let fmto := Fmt.ofCode (r.x.extractLsb' 14 4)
  let fmt := fmto.getD Fmt.first
  let rf := r.x.extractLsb' 5 6
  let nl := r.x.extractLsb' 0 5
  build (kindErr (okTile d) d
    ++ kindErr (okFsrc a) a
    ++ unusedErr r.b
    ++ unusedErr r.c
    ++ mustBe .format fmto.isSome
    ++ mustBe .malformed (r.x &&& 0x3800#27 == 0#27)
    ++ mustBe .portKind (!r.e)
    ++ mustBe .format (okBcastFmt fmt)
    ++ mustBe .malformed (okRange rf nl)) (.vbcast g d a fmt rf nl)

/-- R49: code 0x21, VROW, VROW_REL. -/
def decodeV21 (r : Raw) (g : Guard) : Dec :=
  if r.x.getLsbD 17 then
    let d := Port.ofByte r.d
    build (kindErr (okTile d) d
      ++ unusedErr r.a
      ++ unusedErr r.b
      ++ unusedErr r.c
      ++ mustBe .malformed (r.x &&& 0x1FFFF#27 == 0#27)
      ++ mustBe .portKind (!r.e)) (.vrowRel g d)
  else
    let d := Port.ofByte r.d
    let a := Port.ofByte r.a
    let sf := r.x.extractLsb' 11 6
    let rf := r.x.extractLsb' 5 6
    let nl := r.x.extractLsb' 0 5
    build (kindErr (okTile d) d
      ++ kindErr (okTile a) a
      ++ unusedErr r.b
      ++ unusedErr r.c
      ++ mustBe .portKind (!r.e)
      ++ mustBe .malformed (okRange rf nl)
      ++ mustBe .malformed (okSrcRange sf rf nl)) (.vrow g d a sf rf nl)

/-- R49: code 0x22, VPERM. -/
def decodeV22 (r : Raw) (g : Guard) : Dec :=
  let d := Port.ofByte r.d
  let a := Port.ofByte r.a
  let b := Port.ofByte r.b
  let rf := r.x.extractLsb' 5 6
  let nl := r.x.extractLsb' 0 5
  build (kindErr (okTile d) d
    ++ kindErr (okTile a) a
    ++ kindErr (okTile b) b
    ++ unusedErr r.c
    ++ mustBe .malformed (r.x &&& 0x3F800#27 == 0#27)
    ++ mustBe .portKind (!r.e)
    ++ mustBe .malformed (okRange rf nl)) (.vperm g d a b rf nl)

/-- R49: code 0x28, VSUM. -/
def decodeV28 (r : Raw) (g : Guard) : Dec :=
  let d := Port.ofByte r.d
  let a := Port.ofByte r.a
  let rmo := Rnd.ofCode (r.x.extractLsb' 11 3)
  let rm := rmo.getD Rnd.first
  let rf := r.x.extractLsb' 5 6
  let nl := r.x.extractLsb' 0 5
  let e := r.e
  build (kindErr ((okTile d || okSdst .va d)) d
    ++ kindErr (okTile a) a
    ++ unusedErr r.b
    ++ unusedErr r.c
    ++ mustBe .malformed rmo.isSome
    ++ mustBe .malformed (r.x &&& 0x3C000#27 == 0#27)
    ++ mustBe .portKind (okEph e d)
    ++ mustBe .malformed (rm != .sr)
    ++ mustBe .malformed (okRange rf nl)) (.vsum g e d a rm rf nl)

/-- R49: code 0x29, VMAXR. -/
def decodeV29 (r : Raw) (g : Guard) : Dec :=
  let d := Port.ofByte r.d
  let a := Port.ofByte r.a
  let arg := r.x.getLsbD 14
  let rf := r.x.extractLsb' 5 6
  let nl := r.x.extractLsb' 0 5
  let e := r.e
  build (kindErr ((okTile d || okSdst .va d)) d
    ++ kindErr (okTile a) a
    ++ unusedErr r.b
    ++ unusedErr r.c
    ++ mustBe .malformed (r.x &&& 0x3B800#27 == 0#27)
    ++ mustBe .portKind (okEph e d)
    ++ mustBe .malformed (okRange rf nl)) (.vmaxr g e d a arg rf nl)

/-- R49: code 0x2A, VMRED. -/
def decodeV2A (r : Raw) (g : Guard) : Dec :=
  let d := Port.ofByte r.d
  let a := Port.ofByte r.a
  let b := Port.ofByte r.b
  let copo := RedOp.ofCode (r.x.extractLsb' 14 4)
  let cop := copo.getD RedOp.first
  let rmo := Rnd.ofCode (r.x.extractLsb' 11 3)
  let rm := rmo.getD Rnd.first
  let rf := r.x.extractLsb' 5 6
  let nl := r.x.extractLsb' 0 5
  build (kindErr (okTile d) d
    ++ kindErr (okTile a) a
    ++ kindErr (okTile b) b
    ++ unusedErr r.c
    ++ mustBe .malformed copo.isSome
    ++ mustBe .malformed rmo.isSome
    ++ mustBe .portKind (!r.e)
    ++ mustBe .malformed (rm != .sr)
    ++ mustBe .malformed ((cop == .add || rm == .rne))
    ++ mustBe .malformed (okRange rf nl)) (.vmred g d a b cop rm rf nl)

/-- R49: code 0x2B, VMSCAN. -/
def decodeV2B (r : Raw) (g : Guard) : Dec :=
  let d := Port.ofByte r.d
  let a := Port.ofByte r.a
  let b := Port.ofByte r.b
  let copo := RedOp.ofCode (r.x.extractLsb' 14 4)
  let cop := copo.getD RedOp.first
  let rmo := Rnd.ofCode (r.x.extractLsb' 11 3)
  let rm := rmo.getD Rnd.first
  let rf := r.x.extractLsb' 5 6
  let nl := r.x.extractLsb' 0 5
  build (kindErr (okTile d) d
    ++ kindErr (okTile a) a
    ++ kindErr (okTile b) b
    ++ unusedErr r.c
    ++ mustBe .malformed copo.isSome
    ++ mustBe .malformed rmo.isSome
    ++ mustBe .portKind (!r.e)
    ++ mustBe .malformed (rm != .sr)
    ++ mustBe .malformed ((cop == .add || rm == .rne))
    ++ mustBe .malformed (okRange rf nl)) (.vmscan g d a b cop rm rf nl)

/-- R49: code 0x30, VBAND. -/
def decodeV30 (r : Raw) (g : Guard) : Dec :=
  let d := Port.ofByte r.d
  let a := Port.ofByte r.a
  let b := Port.ofByte r.b
  let rf := r.x.extractLsb' 5 6
  let nl := r.x.extractLsb' 0 5
  build (kindErr (okTile d) d
    ++ kindErr (okTile a) a
    ++ kindErr (okTile b) b
    ++ unusedErr r.c
    ++ mustBe .malformed (r.x &&& 0x3F800#27 == 0#27)
    ++ mustBe .portKind (!r.e)
    ++ mustBe .malformed (okRange rf nl)) (.vband g d a b rf nl)

/-- R49: code 0x31, VPOPC. -/
def decodeV31 (r : Raw) (g : Guard) : Dec :=
  let d := Port.ofByte r.d
  let a := Port.ofByte r.a
  let rf := r.x.extractLsb' 5 6
  let nl := r.x.extractLsb' 0 5
  build (kindErr (okTile d) d
    ++ kindErr (okTile a) a
    ++ unusedErr r.b
    ++ unusedErr r.c
    ++ mustBe .malformed (r.x &&& 0x3F800#27 == 0#27)
    ++ mustBe .portKind (!r.e)
    ++ mustBe .malformed (okRange rf nl)) (.vpopc g d a rf nl)

/-- R49: code 0x32, VPFX. -/
def decodeV32 (r : Raw) (g : Guard) : Dec :=
  let d := Port.ofByte r.d
  let a := Port.ofByte r.a
  let b := Port.ofByte r.b
  let rf := r.x.extractLsb' 5 6
  let nl := r.x.extractLsb' 0 5
  build (kindErr (okTile d) d
    ++ kindErr (okTile a) a
    ++ kindErr (okFsrc b) b
    ++ unusedErr r.c
    ++ mustBe .malformed (r.x &&& 0x3F800#27 == 0#27)
    ++ mustBe .portKind (!r.e)
    ++ mustBe .malformed (okRange rf nl)) (.vpfx g d a b rf nl)

/-- R49: code 0x33, VISECT. -/
def decodeV33 (r : Raw) (g : Guard) : Dec :=
  let d := Port.ofByte r.d
  let a := Port.ofByte r.a
  let b := Port.ofByte r.b
  let c := Port.ofByte r.c
  let rf := r.x.extractLsb' 5 6
  let nl := r.x.extractLsb' 0 5
  let e := r.e
  build (kindErr (okSdst .va d) d
    ++ kindErr (okTile a) a
    ++ kindErr (okTile b) b
    ++ kindErr (okFsrc c) c
    ++ mustBe .malformed (r.x &&& 0x3F800#27 == 0#27)
    ++ mustBe .portKind (okEph e d)
    ++ mustBe .malformed (okRange rf nl)) (.visect g e d a b c rf nl)

/-- R49: code 0x38, VLSEM. -/
def decodeV38 (r : Raw) (g : Guard) : Dec :=
  let d := Port.ofByte r.d
  let a := Port.ofByte r.a
  let b := Port.ofByte r.b
  let rf := r.x.extractLsb' 5 6
  let nl := r.x.extractLsb' 0 5
  build (kindErr (okTile d) d
    ++ kindErr (okTile a) a
    ++ kindErr (okTile b) b
    ++ unusedErr r.c
    ++ mustBe .malformed (r.x &&& 0x3F800#27 == 0#27)
    ++ mustBe .portKind (!r.e)
    ++ mustBe .malformed (okRange rf nl)
    ++ mustBe .malformed (okPairs rf nl)) (.vlsem g d a b rf nl)

/-- The V map (R49). -/
def decodeV (r : Raw) (g : Guard) : Dec :=
  match r.op.toNat with
  | 0x01 => decodeV01 r g
  | 0x02 => decodeV02 r g
  | 0x03 => decodeV03 r g
  | 0x04 => decodeV04 r g
  | 0x05 => decodeV05 r g
  | 0x06 => decodeV06 r g
  | 0x07 => decodeV07 r g
  | 0x08 => decodeV08 r g
  | 0x09 => decodeV09 r g
  | 0x0A => decodeV0A r g
  | 0x10 => decodeV10 r g
  | 0x11 => decodeV11 r g
  | 0x12 => decodeV12 r g
  | 0x13 => decodeV13 r g
  | 0x14 => decodeV14 r g
  | 0x18 => decodeV18 r g
  | 0x19 => decodeV19 r g
  | 0x1A => decodeV1A r g
  | 0x1C => decodeV1C r g
  | 0x1D => decodeV1D r g
  | 0x20 => decodeV20 r g
  | 0x21 => decodeV21 r g
  | 0x22 => decodeV22 r g
  | 0x28 => decodeV28 r g
  | 0x29 => decodeV29 r g
  | 0x2A => decodeV2A r g
  | 0x2B => decodeV2B r g
  | 0x30 => decodeV30 r g
  | 0x31 => decodeV31 r g
  | 0x32 => decodeV32 r g
  | 0x33 => decodeV33 r g
  | 0x38 => decodeV38 r g
  | _ => .bad [.unassigned] none

/-- R50: code 0x01, DFROM. -/
def decodeD01 (r : Raw) (g : Guard) : Dec :=
  let d := Port.ofByte r.d
  let a := Port.ofByte r.a
  let rf := r.x.extractLsb' 5 6
  build (kindErr (okDir d) d
    ++ kindErr (okTile a) a
    ++ unusedErr r.b
    ++ unusedErr r.c
    ++ mustBe .malformed (r.x &&& 0x3F81F#27 == 0#27)
    ++ mustBe .portKind (!r.e)) (.dfrom g d a rf)

/-- R50: code 0x02, DTO. -/
def decodeD02 (r : Raw) (g : Guard) : Dec :=
  let d := Port.ofByte r.d
  let a := Port.ofByte r.a
  let fmto := Fmt.ofCode (r.x.extractLsb' 14 4)
  let fmt := fmto.getD Fmt.first
  let rmo := Rnd.ofCode (r.x.extractLsb' 11 3)
  let rm := rmo.getD Rnd.first
  let rf := r.x.extractLsb' 5 6
  build (kindErr (okTile d) d
    ++ kindErr (okDir a) a
    ++ unusedErr r.b
    ++ unusedErr r.c
    ++ mustBe .format fmto.isSome
    ++ mustBe .malformed rmo.isSome
    ++ mustBe .malformed (r.x &&& 0x1F#27 == 0#27)
    ++ mustBe .portKind (!r.e)
    ++ mustBe .malformed (rm != .sr)
    ++ mustBe .format (okDtoFmt fmt)
    ++ mustBe .malformed ((fmto != some .f32 || rf != 63#6))) (.dto g d a fmt rm rf)

/-- R50: code 0x03, DCOS. -/
def decodeD03 (r : Raw) (g : Guard) : Dec :=
  let d := Port.ofByte r.d
  let a := Port.ofByte r.a
  let b := Port.ofByte r.b
  let e := r.e
  build (kindErr (okSdst .dv d) d
    ++ kindErr (okDir a) a
    ++ kindErr (okDir b) b
    ++ unusedErr r.c
    ++ mustBe .malformed (r.x &&& 0x3FFFF#27 == 0#27)
    ++ mustBe .portKind (okEph e d)) (.dcos g e d a b)

/-- R50: code 0x04, DDOTW. -/
def decodeD04 (r : Raw) (g : Guard) : Dec :=
  let d := Port.ofByte r.d
  let a := Port.ofByte r.a
  let b := Port.ofByte r.b
  let e := r.e
  build (kindErr (okSdst .dv d) d
    ++ kindErr (okDir a) a
    ++ kindErr (okDir b) b
    ++ unusedErr r.c
    ++ mustBe .malformed (r.x &&& 0x3FFFF#27 == 0#27)
    ++ mustBe .portKind (okEph e d)) (.ddotw g e d a b)

/-- R50: code 0x05, DSCL. -/
def decodeD05 (r : Raw) (g : Guard) : Dec :=
  let d := Port.ofByte r.d
  let a := Port.ofByte r.a
  let b := Port.ofByte r.b
  build (kindErr (okDir d) d
    ++ kindErr (okDir a) a
    ++ kindErr (okFsrc b) b
    ++ unusedErr r.c
    ++ mustBe .malformed (r.x &&& 0x3FFFF#27 == 0#27)
    ++ mustBe .portKind (!r.e)) (.dscl g d a b)

/-- R50: code 0x06, DADD. -/
def decodeD06 (r : Raw) (g : Guard) : Dec :=
  let d := Port.ofByte r.d
  let a := Port.ofByte r.a
  let b := Port.ofByte r.b
  build (kindErr (okDir d) d
    ++ kindErr (okDir a) a
    ++ kindErr (okDir b) b
    ++ unusedErr r.c
    ++ mustBe .malformed (r.x &&& 0x3FFFF#27 == 0#27)
    ++ mustBe .portKind (!r.e)) (.dadd g d a b)

/-- R50: code 0x07, DSUB. -/
def decodeD07 (r : Raw) (g : Guard) : Dec :=
  let d := Port.ofByte r.d
  let a := Port.ofByte r.a
  let b := Port.ofByte r.b
  build (kindErr (okDir d) d
    ++ kindErr (okDir a) a
    ++ kindErr (okDir b) b
    ++ unusedErr r.c
    ++ mustBe .malformed (r.x &&& 0x3FFFF#27 == 0#27)
    ++ mustBe .portKind (!r.e)) (.dsub g d a b)

/-- R50: code 0x08, DLERP. -/
def decodeD08 (r : Raw) (g : Guard) : Dec :=
  let d := Port.ofByte r.d
  let a := Port.ofByte r.a
  let b := Port.ofByte r.b
  let c := Port.ofByte r.c
  build (kindErr (okDir d) d
    ++ kindErr (okDir a) a
    ++ kindErr (okDir b) b
    ++ kindErr (okFsrc c) c
    ++ mustBe .malformed (r.x &&& 0x3FFFF#27 == 0#27)
    ++ mustBe .portKind (!r.e)) (.dlerp g d a b c)

/-- R50: code 0x09, DNEG. -/
def decodeD09 (r : Raw) (g : Guard) : Dec :=
  let d := Port.ofByte r.d
  let a := Port.ofByte r.a
  build (kindErr (okDir d) d
    ++ kindErr (okDir a) a
    ++ unusedErr r.b
    ++ unusedErr r.c
    ++ mustBe .malformed (r.x &&& 0x3FFFF#27 == 0#27)
    ++ mustBe .portKind (!r.e)) (.dneg g d a)

/-- R50: code 0x0A, DCMP. -/
def decodeD0A (r : Raw) (g : Guard) : Dec :=
  let d := Port.ofByte r.d
  let a := Port.ofByte r.a
  let b := Port.ofByte r.b
  let c := Port.ofByte r.c
  let act1 := r.x.extractLsb' 9 2
  let act0 := r.x.extractLsb' 7 2
  let act := r.x.getLsbD 4
  let condo := FCond.ofCode (r.x.extractLsb' 0 4)
  let cond := condo.getD FCond.first
  let e := r.e
  build (kindErr ((okSdst .dv d || okPdst d)) d
    ++ kindErr (okDirf a) a
    ++ kindErr (okDirz b) b
    ++ kindErr (okFsrc c) c
    ++ mustBe .malformed condo.isSome
    ++ mustBe .malformed (r.x &&& 0x3F860#27 == 0#27)
    ++ mustBe .portKind (okEph e d)
    ++ mustBe .portKind (ownCode a || ownCode b || okDcmpPair a b)
    ++ mustBe .malformed (okDcmpAct d act act1 act0)) (.dcmp g e d a b c act1 act0 act cond)

/-- R50: code 0x0B, DNGET. -/
def decodeD0B (r : Raw) (g : Guard) : Dec :=
  let d := Port.ofByte r.d
  let a := Port.ofByte r.a
  let e := r.e
  build (kindErr (okSdst .dv d) d
    ++ kindErr (okNrm a) a
    ++ unusedErr r.b
    ++ unusedErr r.c
    ++ mustBe .malformed (r.x &&& 0x3FFFF#27 == 0#27)
    ++ mustBe .portKind (okEph e d)) (.dnget g e d a)

/-- R50: code 0x0C, DNSET. -/
def decodeD0C (r : Raw) (g : Guard) : Dec :=
  let d := Port.ofByte r.d
  let a := Port.ofByte r.a
  build (kindErr (okNrm d) d
    ++ kindErr (okFsrc a) a
    ++ unusedErr r.b
    ++ unusedErr r.c
    ++ mustBe .malformed (r.x &&& 0x3FFFF#27 == 0#27)
    ++ mustBe .portKind (!r.e)) (.dnset g d a)

/-- R50: code 0x0D, DSPLIT. -/
def decodeD0D (r : Raw) (g : Guard) : Dec :=
  let d := Port.ofByte r.d
  let a := Port.ofByte r.a
  let b := Port.ofByte r.b
  build (kindErr (okDir d) d
    ++ kindErr (okDir a) a
    ++ kindErr (okNsrc b) b
    ++ unusedErr r.c
    ++ mustBe .malformed (r.x &&& 0x3FFFF#27 == 0#27)
    ++ mustBe .portKind (!r.e)) (.dsplit g d a b)

/-- R50: code 0x0E, DJOIN. -/
def decodeD0E (r : Raw) (g : Guard) : Dec :=
  let d := Port.ofByte r.d
  let a := Port.ofByte r.a
  let b := Port.ofByte r.b
  let e := r.e
  build (kindErr (okSdst .dv d) d
    ++ kindErr (okNsrc a) a
    ++ kindErr (okNsrc b) b
    ++ unusedErr r.c
    ++ mustBe .malformed (r.x &&& 0x3FFFF#27 == 0#27)
    ++ mustBe .portKind (okEph e d)) (.djoin g e d a b)

/-- R50: code 0x40, EXP2. -/
def decodeD40 (r : Raw) (g : Guard) : Dec :=
  let d := Port.ofByte r.d
  let a := Port.ofByte r.a
  let rf := r.x.extractLsb' 5 6
  let nl := r.x.extractLsb' 0 5
  build (kindErr (okTile d) d
    ++ kindErr (okVop a) a
    ++ unusedErr r.b
    ++ unusedErr r.c
    ++ mustBe .malformed (r.x &&& 0x3F800#27 == 0#27)
    ++ mustBe .portKind (!r.e)
    ++ mustBe .malformed (okRange rf nl)) (.exp2 g d a rf nl)

/-- R50: code 0x41, LOG2. -/
def decodeD41 (r : Raw) (g : Guard) : Dec :=
  let d := Port.ofByte r.d
  let a := Port.ofByte r.a
  let rf := r.x.extractLsb' 5 6
  let nl := r.x.extractLsb' 0 5
  build (kindErr (okTile d) d
    ++ kindErr (okVop a) a
    ++ unusedErr r.b
    ++ unusedErr r.c
    ++ mustBe .malformed (r.x &&& 0x3F800#27 == 0#27)
    ++ mustBe .portKind (!r.e)
    ++ mustBe .malformed (okRange rf nl)) (.log2 g d a rf nl)

/-- R50: code 0x42, RCP. -/
def decodeD42 (r : Raw) (g : Guard) : Dec :=
  let d := Port.ofByte r.d
  let a := Port.ofByte r.a
  let rmo := Rnd.ofCode (r.x.extractLsb' 11 3)
  let rm := rmo.getD Rnd.first
  let rf := r.x.extractLsb' 5 6
  let nl := r.x.extractLsb' 0 5
  build (kindErr (okTile d) d
    ++ kindErr (okVop a) a
    ++ unusedErr r.b
    ++ unusedErr r.c
    ++ mustBe .malformed rmo.isSome
    ++ mustBe .malformed (r.x &&& 0x3C000#27 == 0#27)
    ++ mustBe .portKind (!r.e)
    ++ mustBe .malformed (rm != .sr)
    ++ mustBe .malformed (okRange rf nl)) (.rcp g d a rm rf nl)

/-- R50: code 0x43, RSQRT. -/
def decodeD43 (r : Raw) (g : Guard) : Dec :=
  let d := Port.ofByte r.d
  let a := Port.ofByte r.a
  let rmo := Rnd.ofCode (r.x.extractLsb' 11 3)
  let rm := rmo.getD Rnd.first
  let rf := r.x.extractLsb' 5 6
  let nl := r.x.extractLsb' 0 5
  build (kindErr (okTile d) d
    ++ kindErr (okVop a) a
    ++ unusedErr r.b
    ++ unusedErr r.c
    ++ mustBe .malformed rmo.isSome
    ++ mustBe .malformed (r.x &&& 0x3C000#27 == 0#27)
    ++ mustBe .portKind (!r.e)
    ++ mustBe .malformed (rm != .sr)
    ++ mustBe .malformed (okRange rf nl)) (.rsqrt g d a rm rf nl)

/-- R50: code 0x44, SQRT. -/
def decodeD44 (r : Raw) (g : Guard) : Dec :=
  let d := Port.ofByte r.d
  let a := Port.ofByte r.a
  let rmo := Rnd.ofCode (r.x.extractLsb' 11 3)
  let rm := rmo.getD Rnd.first
  let rf := r.x.extractLsb' 5 6
  let nl := r.x.extractLsb' 0 5
  build (kindErr (okTile d) d
    ++ kindErr (okVop a) a
    ++ unusedErr r.b
    ++ unusedErr r.c
    ++ mustBe .malformed rmo.isSome
    ++ mustBe .malformed (r.x &&& 0x3C000#27 == 0#27)
    ++ mustBe .portKind (!r.e)
    ++ mustBe .malformed (rm != .sr)
    ++ mustBe .malformed (okRange rf nl)) (.sqrt g d a rm rf nl)

/-- R50: code 0x45, SIN. -/
def decodeD45 (r : Raw) (g : Guard) : Dec :=
  let d := Port.ofByte r.d
  let a := Port.ofByte r.a
  let rf := r.x.extractLsb' 5 6
  let nl := r.x.extractLsb' 0 5
  build (kindErr (okTile d) d
    ++ kindErr (okVop a) a
    ++ unusedErr r.b
    ++ unusedErr r.c
    ++ mustBe .malformed (r.x &&& 0x3F800#27 == 0#27)
    ++ mustBe .portKind (!r.e)
    ++ mustBe .malformed (okRange rf nl)) (.sin g d a rf nl)

/-- R50: code 0x46, COS. -/
def decodeD46 (r : Raw) (g : Guard) : Dec :=
  let d := Port.ofByte r.d
  let a := Port.ofByte r.a
  let rf := r.x.extractLsb' 5 6
  let nl := r.x.extractLsb' 0 5
  build (kindErr (okTile d) d
    ++ kindErr (okVop a) a
    ++ unusedErr r.b
    ++ unusedErr r.c
    ++ mustBe .malformed (r.x &&& 0x3F800#27 == 0#27)
    ++ mustBe .portKind (!r.e)
    ++ mustBe .malformed (okRange rf nl)) (.cos g d a rf nl)

/-- R50: code 0x47, TANH. -/
def decodeD47 (r : Raw) (g : Guard) : Dec :=
  let d := Port.ofByte r.d
  let a := Port.ofByte r.a
  let rf := r.x.extractLsb' 5 6
  let nl := r.x.extractLsb' 0 5
  build (kindErr (okTile d) d
    ++ kindErr (okVop a) a
    ++ unusedErr r.b
    ++ unusedErr r.c
    ++ mustBe .malformed (r.x &&& 0x3F800#27 == 0#27)
    ++ mustBe .portKind (!r.e)
    ++ mustBe .malformed (okRange rf nl)) (.tanh g d a rf nl)

/-- The D map (R50). -/
def decodeD (r : Raw) (g : Guard) : Dec :=
  match r.op.toNat with
  | 0x01 => decodeD01 r g
  | 0x02 => decodeD02 r g
  | 0x03 => decodeD03 r g
  | 0x04 => decodeD04 r g
  | 0x05 => decodeD05 r g
  | 0x06 => decodeD06 r g
  | 0x07 => decodeD07 r g
  | 0x08 => decodeD08 r g
  | 0x09 => decodeD09 r g
  | 0x0A => decodeD0A r g
  | 0x0B => decodeD0B r g
  | 0x0C => decodeD0C r g
  | 0x0D => decodeD0D r g
  | 0x0E => decodeD0E r g
  | 0x40 => decodeD40 r g
  | 0x41 => decodeD41 r g
  | 0x42 => decodeD42 r g
  | 0x43 => decodeD43 r g
  | 0x44 => decodeD44 r g
  | 0x45 => decodeD45 r g
  | 0x46 => decodeD46 r g
  | 0x47 => decodeD47 r g
  | _ => .bad [.unassigned] none

/-- R51: code 0x01, MZERO. -/
def decodeX01 (r : Raw) (g : Guard) : Dec :=
  let d := Port.ofByte r.d
  let fmto := Fmt.ofCode (r.x.extractLsb' 14 4)
  let fmt := fmto.getD Fmt.first
  build (kindErr (okTile d) d
    ++ unusedErr r.a
    ++ unusedErr r.b
    ++ unusedErr r.c
    ++ mustBe .format fmto.isSome
    ++ mustBe .malformed (r.x &&& 0x3FFF#27 == 0#27)
    ++ mustBe .portKind (!r.e)
    ++ mustBe .format (okMzeroFmt fmt)) (.mzero g d fmt)

/-- R51: code 0x02, MLOAD. -/
def decodeX02 (r : Raw) (g : Guard) : Dec :=
  let d := Port.ofByte r.d
  let a := Port.ofByte r.a
  let keep := r.x.getLsbD 0
  build (kindErr (okTile d) d
    ++ kindErr (okBob a) a
    ++ unusedErr r.b
    ++ unusedErr r.c
    ++ mustBe .malformed (r.x &&& 0x3FFFE#27 == 0#27)
    ++ mustBe .portKind (!r.e)) (.mload g d a keep)

/-- R51: code 0x03, MMA. -/
def decodeX03 (r : Raw) (g : Guard) : Dec :=
  let d := Port.ofByte r.d
  let a := Port.ofByte r.a
  let b := Port.ofByte r.b
  let c := Port.ofByte r.c
  let f := Port.ofByte r.f
  let ka := r.x.getLsbD 9
  let kb := r.x.getLsbD 8
  let depth := r.x.extractLsb' 0 8
  build (kindErr (okTile d) d
    ++ kindErr (okBob a) a
    ++ kindErr (okBob b) b
    ++ kindErr (okFsrc c) c
    ++ kindErr (okFsrc f) f
    ++ mustBe .portKind (!r.e)) (.mma g d a b c f ka kb depth)

/-- R51: code 0x04, MMAT. -/
def decodeX04 (r : Raw) (g : Guard) : Dec :=
  let d := Port.ofByte r.d
  let a := Port.ofByte r.a
  let b := Port.ofByte r.b
  let c := Port.ofByte r.c
  let f := Port.ofByte r.f
  let ka := r.x.getLsbD 9
  let kb := r.x.getLsbD 8
  let depth := r.x.extractLsb' 0 8
  build (kindErr (okTile d) d
    ++ kindErr (okBob a) a
    ++ kindErr (okBob b) b
    ++ kindErr (okFsrc c) c
    ++ kindErr (okFsrc f) f
    ++ mustBe .portKind (!r.e)) (.mmat g d a b c f ka kb depth)

/-- R51: code 0x05, MMASK. -/
def decodeX05 (r : Raw) (g : Guard) : Dec :=
  let a := Port.ofByte r.a
  let b := Port.ofByte r.b
  build (unusedErr r.d
    ++ kindErr (okFsrc a) a
    ++ kindErr (okFsrc b) b
    ++ unusedErr r.c
    ++ mustBe .malformed (r.x &&& 0x3FFFF#27 == 0#27)
    ++ mustBe .malformed (!r.e)) (.mmask g a b)

/-- R51: code 0x06, MDRAIN. -/
def decodeX06 (r : Raw) (g : Guard) : Dec :=
  let d := Port.ofByte r.d
  let a := Port.ofByte r.a
  let b := Port.ofByte r.b
  let rmo := Rnd.ofCode (r.x.extractLsb' 11 3)
  let rm := rmo.getD Rnd.first
  build (kindErr (okBob d) d
    ++ kindErr (okTile a) a
    ++ kindErr (okFsrc b) b
    ++ unusedErr r.c
    ++ mustBe .malformed rmo.isSome
    ++ mustBe .malformed (r.x &&& 0x3C7FF#27 == 0#27)
    ++ mustBe .portKind (!r.e)
    ++ mustBe .malformed (rm != .sr)) (.mdrain g d a b rm)

/-- R51: code 0x07, MSTEP. -/
def decodeX07 (r : Raw) (g : Guard) : Dec :=
  let d := Port.ofByte r.d
  let a := Port.ofByte r.a
  let b := Port.ofByte r.b
  let c := Port.ofByte r.c
  let steps1 := r.x.extractLsb' 0 5
  build (kindErr (okTile d) d
    ++ kindErr (okBob a) a
    ++ kindErr (okBob b) b
    ++ kindErr (okBob c) c
    ++ unusedErr r.f
    ++ mustBe .malformed (r.x &&& 0x3E0#27 == 0#27)
    ++ mustBe .portKind (!r.e)) (.mstep g d a b c steps1)

/-- R51: code 0x08, MSTASH. -/
def decodeX08 (r : Raw) (g : Guard) : Dec :=
  let d := Port.ofByte r.d
  let a := Port.ofByte r.a
  let b := Port.ofByte r.b
  let c := Port.ofByte r.c
  build (kindErr (okFlgz d) d
    ++ kindErr (okTile a) a
    ++ kindErr (okFsrc b) b
    ++ kindErr (okFsrc c) c
    ++ mustBe .malformed (r.x &&& 0x3FFFF#27 == 0#27)
    ++ mustBe .portKind (!r.e)) (.mstash g d a b c)

/-- R51: code 0x09, MUNST. -/
def decodeX09 (r : Raw) (g : Guard) : Dec :=
  let d := Port.ofByte r.d
  let a := Port.ofByte r.a
  let b := Port.ofByte r.b
  let c := Port.ofByte r.c
  build (kindErr (okFlgz d) d
    ++ kindErr (okTile a) a
    ++ kindErr (okFsrc b) b
    ++ kindErr (okFsrc c) c
    ++ mustBe .malformed (r.x &&& 0x3FFFF#27 == 0#27)
    ++ mustBe .portKind (!r.e)) (.munst g d a b c)

/-- R51: code 0x0A, MFMT. -/
def decodeX0A (r : Raw) (g : Guard) : Dec :=
  let d := Port.ofByte r.d
  let a := Port.ofByte r.a
  let b := Port.ofByte r.b
  let fmto := Fmt.ofCode (r.x.extractLsb' 14 4)
  let fmt := fmto.getD Fmt.first
  let rmo := Rnd.ofCode (r.x.extractLsb' 11 3)
  let rm := rmo.getD Rnd.first
  build (kindErr (okTile d) d
    ++ kindErr (okTile a) a
    ++ kindErr (okFsrc b) b
    ++ unusedErr r.c
    ++ mustBe .format fmto.isSome
    ++ mustBe .malformed rmo.isSome
    ++ mustBe .malformed (r.x &&& 0x7FF#27 == 0#27)
    ++ mustBe .portKind (!r.e)
    ++ mustBe .malformed (rm != .sr)
    ++ mustBe .format (okMzeroFmt fmt)) (.mfmt g d a b fmt rm)

/-- R51: code 0x0B, MQRY. -/
def decodeX0B (r : Raw) (g : Guard) : Dec :=
  let d := Port.ofByte r.d
  let a := Port.ofByte r.a
  let sl := r.x.extractLsb' 0 3
  let e := r.e
  build (kindErr (okSdst .mx d) d
    ++ kindErr (okMqa a) a
    ++ unusedErr r.b
    ++ unusedErr r.c
    ++ mustBe .malformed (r.x &&& 0x3FFF8#27 == 0#27)
    ++ mustBe .portKind (okEph e d)
    ++ mustBe .malformed (okMqrySel sl a)
    ++ mustBe .portKind (okMqryTile sl a)) (.mqry g e d a sl)

/-- R51: code 0x0C, MSYNC. -/
def decodeX0C (r : Raw) (g : Guard) : Dec :=
  build (unusedErr r.d
    ++ unusedErr r.a
    ++ unusedErr r.b
    ++ unusedErr r.c
    ++ mustBe .malformed (r.x &&& 0x3FFFF#27 == 0#27)
    ++ mustBe .malformed (!r.e)) (.msync g)

/-- The X map (R51). -/
def decodeX (r : Raw) (g : Guard) : Dec :=
  match r.op.toNat with
  | 0x01 => decodeX01 r g
  | 0x02 => decodeX02 r g
  | 0x03 => decodeX03 r g
  | 0x04 => decodeX04 r g
  | 0x05 => decodeX05 r g
  | 0x06 => decodeX06 r g
  | 0x07 => decodeX07 r g
  | 0x08 => decodeX08 r g
  | 0x09 => decodeX09 r g
  | 0x0A => decodeX0A r g
  | 0x0B => decodeX0B r g
  | 0x0C => decodeX0C r g
  | _ => .bad [.unassigned] none

/-- R52: code 0x01, TMV. -/
def decodeT01 (r : Raw) (g : Guard) : Dec :=
  let d := Port.ofByte r.d
  let a := Port.ofByte r.a
  let b := Port.ofByte r.b
  build (kindErr (okFlgz d) d
    ++ kindErr (okHdl a) a
    ++ kindErr (okHb b) b
    ++ unusedErr r.c
    ++ mustBe .malformed (r.x &&& 0x3FFFF#27 == 0#27)
    ++ mustBe .portKind (!r.e)) (.tmv g d a b)

/-- R52: code 0x02, CPY. -/
def decodeT02 (r : Raw) (g : Guard) : Dec :=
  let d := Port.ofByte r.d
  let a := Port.ofByte r.a
  let b := Port.ofByte r.b
  let c := Port.ofByte r.c
  let sco := Scope.ofCode (r.x.extractLsb' 3 3)
  let sc := sco.getD Scope.first
  build (kindErr (okFlgz d) d
    ++ kindErr (okHb a) a
    ++ kindErr (okHb b) b
    ++ kindErr (okIsrc c) c
    ++ mustBe .malformed sco.isSome
    ++ mustBe .malformed (r.x &&& 0x3FFC7#27 == 0#27)
    ++ mustBe .portKind (!r.e)) (.cpy g d a b c sc)

/-- R52: code 0x03, CPYL. -/
def decodeT03 (r : Raw) (g : Guard) : Dec :=
  let d := Port.ofByte r.d
  let a := Port.ofByte r.a
  let b := Port.ofByte r.b
  let sco := Scope.ofCode (r.x.extractLsb' 3 3)
  let sc := sco.getD Scope.first
  let stop := r.x.getLsbD 2
  let llvlo := Lvl.ofCode (r.x.extractLsb' 0 2)
  let llvl := llvlo.getD Lvl.first
  build (kindErr (okFlgz d) d
    ++ kindErr (okIsrc a) a
    ++ kindErr (okIsrc b) b
    ++ unusedErr r.c
    ++ mustBe .malformed sco.isSome
    ++ mustBe .malformed llvlo.isSome
    ++ mustBe .malformed (r.x &&& 0x3FFC0#27 == 0#27)
    ++ mustBe .portKind (!r.e)) (.cpyl g d a b sc stop llvl)

/-- R52: code 0x04, CPYQ. -/
def decodeT04 (r : Raw) (g : Guard) : Dec :=
  let d := Port.ofByte r.d
  let sl := r.x.extractLsb' 0 2
  let e := r.e
  build (kindErr (okSdst .ce d) d
    ++ unusedErr r.a
    ++ unusedErr r.b
    ++ unusedErr r.c
    ++ mustBe .malformed (r.x &&& 0x3FFFC#27 == 0#27)
    ++ mustBe .portKind (okEph e d)) (.cpyq g e d sl)

/-- R52: code 0x08, HQPUSH. -/
def decodeT08 (r : Raw) (g : Guard) : Dec :=
  let d := Port.ofByte r.d
  let a := Port.ofByte r.a
  let b := Port.ofByte r.b
  build (kindErr (okFlgz d) d
    ++ kindErr (okIsrc a) a
    ++ kindErr (okIsrc b) b
    ++ unusedErr r.c
    ++ mustBe .malformed (r.x &&& 0x3FFFF#27 == 0#27)
    ++ mustBe .portKind (!r.e)) (.hqpush g d a b)

/-- R52: code 0x09, HQPOP. -/
def decodeT09 (r : Raw) (g : Guard) : Dec :=
  let d := Port.ofByte r.d
  let a := Port.ofByte r.a
  let b := Port.ofByte r.b
  build (kindErr (okFlgz d) d
    ++ kindErr (okIsrc a) a
    ++ kindErr (okIsrc b) b
    ++ unusedErr r.c
    ++ mustBe .malformed (r.x &&& 0x3FFFF#27 == 0#27)
    ++ mustBe .portKind (!r.e)) (.hqpop g d a b)

/-- R52: code 0x10, RCMP. -/
def decodeT10 (r : Raw) (g : Guard) : Dec :=
  let d := Port.ofByte r.d
  let a := Port.ofByte r.a
  let b := Port.ofByte r.b
  let c := Port.ofByte r.c
  let sh := r.x.extractLsb' 13 5
  let sth := r.x.getLsbD 12
  let rselo := RowSel.ofCode (r.x.extractLsb' 10 2)
  let rsel := rselo.getD RowSel.first
  let rbase := r.x.extractLsb' 0 9
  build (kindErr (okFlgz d) d
    ++ kindErr (okHdl a) a
    ++ kindErr (okHdl b) b
    ++ kindErr (okIsrc c) c
    ++ mustBe .malformed rselo.isSome
    ++ mustBe .malformed (r.x &&& 0x200#27 == 0#27)
    ++ mustBe .portKind (!r.e)
    ++ mustBe .malformed ((sth || sh == 0#5))) (.rcmp g d a b c sh sth rsel rbase)

/-- R52: code 0x11, RRST. -/
def decodeT11 (r : Raw) (g : Guard) : Dec :=
  let d := Port.ofByte r.d
  let a := Port.ofByte r.a
  let b := Port.ofByte r.b
  let c := Port.ofByte r.c
  let rbase := r.x.extractLsb' 0 9
  build (kindErr (okFlgz d) d
    ++ kindErr (okHdl a) a
    ++ kindErr (okHdl b) b
    ++ kindErr (okIsrc c) c
    ++ mustBe .malformed (r.x &&& 0x3FE00#27 == 0#27)
    ++ mustBe .portKind (!r.e)) (.rrst g d a b c rbase)

/-- R52: code 0x12, RPRED. -/
def decodeT12 (r : Raw) (g : Guard) : Dec :=
  let d := Port.ofByte r.d
  let a := Port.ofByte r.a
  let b := Port.ofByte r.b
  let c := Port.ofByte r.c
  let ronly := r.x.getLsbD 13
  let rdef := r.x.extractLsb' 10 3
  let blk := r.x.extractLsb' 0 10
  build (kindErr (okFlgz d) d
    ++ kindErr (okIsrc a) a
    ++ kindErr (okIsrc b) b
    ++ kindErr (okIsrc c) c
    ++ mustBe .malformed (r.x &&& 0x3C000#27 == 0#27)
    ++ mustBe .portKind (!r.e)) (.rpred g d a b c ronly rdef blk)

/-- R52: code 0x13, RSET, RSET_CFG. -/
def decodeT13 (r : Raw) (g : Guard) : Dec :=
  if r.x.getLsbD 17 then
    let a := Port.ofByte r.a
    build (unusedErr r.d
      ++ kindErr (okIsrc a) a
      ++ unusedErr r.b
      ++ unusedErr r.c
      ++ mustBe .malformed (r.x &&& 0x1FFFF#27 == 0#27)
      ++ mustBe .malformed (!r.e)) (.rsetCfg g a)
  else
    let d := Port.ofByte r.d
    let a := Port.ofByte r.a
    let b := Port.ofByte r.b
    let c := Port.ofByte r.c
    let v := r.x.extractLsb' 0 16
    build (kindErr (okFlgz d) d
      ++ kindErr (okIsrc a) a
      ++ kindErr (okIsrc b) b
      ++ kindErr (okIsrc c) c
      ++ mustBe .malformed (r.x &&& 0x10000#27 == 0#27)
      ++ mustBe .portKind (!r.e)) (.rset g d a b c v)

/-- R52: code 0x14, RCNT. -/
def decodeT14 (r : Raw) (g : Guard) : Dec :=
  let d := Port.ofByte r.d
  let a := Port.ofByte r.a
  let b := Port.ofByte r.b
  let sl := r.x.extractLsb' 0 2
  let e := r.e
  build (kindErr (okSdst .tm d) d
    ++ kindErr (okIsrc a) a
    ++ kindErr (okIsrc b) b
    ++ unusedErr r.c
    ++ mustBe .malformed (r.x &&& 0x3FFFC#27 == 0#27)
    ++ mustBe .portKind (okEph e d)
    ++ mustBe .malformed (okRcnt sl b)) (.rcnt g e d a b sl)

/-- R52: code 0x20, KVAPP, KVAPP_GAP. -/
def decodeT20 (r : Raw) (g : Guard) : Dec :=
  if r.x.getLsbD 1 then
    let d := Port.ofByte r.d
    let a := Port.ofByte r.a
    let b := Port.ofByte r.b
    let c := Port.ofByte r.c
    let cel := r.x.getLsbD 0
    build (kindErr (okFlgz d) d
      ++ kindErr (okIsrc a) a
      ++ kindErr (okIsrc b) b
      ++ kindErr (okIsrc c) c
      ++ mustBe .malformed (r.x &&& 0x3FFFC#27 == 0#27)
      ++ mustBe .portKind (!r.e)) (.kvappGap g d a b c cel)
  else
    let d := Port.ofByte r.d
    let a := Port.ofByte r.a
    let b := Port.ofByte r.b
    let cel := r.x.getLsbD 0
    build (kindErr (okFlgz d) d
      ++ kindErr (okHdl a) a
      ++ kindErr (okIsrc b) b
      ++ unusedErr r.c
      ++ mustBe .malformed (r.x &&& 0x3FFFC#27 == 0#27)
      ++ mustBe .portKind (!r.e)) (.kvapp g d a b cel)

/-- R52: code 0x21, KVCOM_ACC, KVCOM_SET. -/
def decodeT21 (r : Raw) (g : Guard) : Dec :=
  if r.x.getLsbD 2 then
    let d := Port.ofByte r.d
    let a := Port.ofByte r.a
    let b := Port.ofByte r.b
    let cel := r.x.getLsbD 0
    build (kindErr (okFlgz d) d
      ++ kindErr (okIsrc a) a
      ++ kindErr (okIsrc b) b
      ++ unusedErr r.c
      ++ mustBe .malformed (r.x &&& 0x3FFFA#27 == 0#27)
      ++ mustBe .portKind (!r.e)) (.kvcomSet g d a b cel)
  else
    let d := Port.ofByte r.d
    let a := Port.ofByte r.a
    let b := Port.ofByte r.b
    let cel := r.x.getLsbD 0
    build (kindErr (okFlgz d) d
      ++ kindErr (okIsrc a) a
      ++ kindErr (okIsrc b) b
      ++ unusedErr r.c
      ++ mustBe .malformed (r.x &&& 0x3FFFA#27 == 0#27)
      ++ mustBe .portKind (!r.e)) (.kvcomAcc g d a b cel)

/-- R52: code 0x22, KVTENT. -/
def decodeT22 (r : Raw) (g : Guard) : Dec :=
  let d := Port.ofByte r.d
  let a := Port.ofByte r.a
  let cel := r.x.getLsbD 0
  let e := r.e
  build (kindErr (okSdst .tm d) d
    ++ kindErr (okIsrc a) a
    ++ unusedErr r.b
    ++ unusedErr r.c
    ++ mustBe .malformed (r.x &&& 0x3FFFE#27 == 0#27)
    ++ mustBe .portKind (okEph e d)) (.kvtent g e d a cel)

/-- R52: code 0x23, KVROLL. -/
def decodeT23 (r : Raw) (g : Guard) : Dec :=
  let d := Port.ofByte r.d
  let a := Port.ofByte r.a
  let cel := r.x.getLsbD 0
  build (kindErr (okFlgz d) d
    ++ kindErr (okIsrc a) a
    ++ unusedErr r.b
    ++ unusedErr r.c
    ++ mustBe .malformed (r.x &&& 0x3FFFE#27 == 0#27)
    ++ mustBe .portKind (!r.e)) (.kvroll g d a cel)

/-- R52: code 0x24, KVRSCL. -/
def decodeT24 (r : Raw) (g : Guard) : Dec :=
  let d := Port.ofByte r.d
  let a := Port.ofByte r.a
  let b := Port.ofByte r.b
  let cel := r.x.getLsbD 0
  build (kindErr (okFlgz d) d
    ++ kindErr (okIsrc a) a
    ++ kindErr (okIsrc b) b
    ++ unusedErr r.c
    ++ mustBe .malformed (r.x &&& 0x3FFFE#27 == 0#27)
    ++ mustBe .portKind (!r.e)) (.kvrscl g d a b cel)

/-- R52: code 0x25, KVFILL. -/
def decodeT25 (r : Raw) (g : Guard) : Dec :=
  let d := Port.ofByte r.d
  let a := Port.ofByte r.a
  let b := Port.ofByte r.b
  let c := Port.ofByte r.c
  let cel := r.x.getLsbD 0
  build (kindErr (okFlgz d) d
    ++ kindErr (okIsrc a) a
    ++ kindErr (okIsrc b) b
    ++ kindErr (okIsrc c) c
    ++ mustBe .malformed (r.x &&& 0x3FFFE#27 == 0#27)
    ++ mustBe .portKind (!r.e)) (.kvfill g d a b c cel)

/-- R52: code 0x30, ATTN. -/
def decodeT30 (r : Raw) (g : Guard) : Dec :=
  let d := Port.ofByte r.d
  let a := Port.ofByte r.a
  let b := Port.ofByte r.b
  let c := Port.ofByte r.c
  let cel := r.x.getLsbD 0
  build (kindErr (okFlgz d) d
    ++ kindErr (okHdl a) a
    ++ kindErr (okIsrc b) b
    ++ kindErr (okIsrc c) c
    ++ mustBe .malformed (r.x &&& 0x3FFFE#27 == 0#27)
    ++ mustBe .portKind (!r.e)) (.attn g d a b c cel)

/-- R52: code 0x31, SHSEND. -/
def decodeT31 (r : Raw) (g : Guard) : Dec :=
  let d := Port.ofByte r.d
  let a := Port.ofByte r.a
  let b := Port.ofByte r.b
  let cel := r.x.getLsbD 0
  build (kindErr (okFlgz d) d
    ++ kindErr (okHdl a) a
    ++ kindErr (okIsrc b) b
    ++ unusedErr r.c
    ++ mustBe .malformed (r.x &&& 0x3FFFE#27 == 0#27)
    ++ mustBe .portKind (!r.e)) (.shsend g d a b cel)

/-- R52: code 0x32, SHRECV. -/
def decodeT32 (r : Raw) (g : Guard) : Dec :=
  let d := Port.ofByte r.d
  let a := Port.ofByte r.a
  let cel := r.x.getLsbD 0
  build (kindErr (okFlgz d) d
    ++ kindErr (okIsrc a) a
    ++ unusedErr r.b
    ++ unusedErr r.c
    ++ mustBe .malformed (r.x &&& 0x3FFFE#27 == 0#27)
    ++ mustBe .portKind (!r.e)) (.shrecv g d a cel)

/-- R52: code 0x33, EXITN. -/
def decodeT33 (r : Raw) (g : Guard) : Dec :=
  let d := Port.ofByte r.d
  let a := Port.ofByte r.a
  let b := Port.ofByte r.b
  build (kindErr (okFlgz d) d
    ++ kindErr (okIsrc a) a
    ++ kindErr (okIsrc b) b
    ++ unusedErr r.c
    ++ mustBe .malformed (r.x &&& 0x3FFFF#27 == 0#27)
    ++ mustBe .portKind (!r.e)) (.exitn g d a b)

/-- R52: code 0x38, OVL. -/
def decodeT38 (r : Raw) (g : Guard) : Dec :=
  let d := Port.ofByte r.d
  let a := Port.ofByte r.a
  let b := Port.ofByte r.b
  let frc := r.x.getLsbD 10
  let ovn := r.x.extractLsb' 2 8
  let oslot := r.x.extractLsb' 0 2
  build (kindErr (okFlgz d) d
    ++ kindErr (okTgt a) a
    ++ kindErr (okTgt b) b
    ++ unusedErr r.c
    ++ mustBe .malformed (r.x &&& 0x3F800#27 == 0#27)
    ++ mustBe .portKind (!r.e)) (.ovl g d a b frc ovn oslot)

/-- R52: code 0x39, OPBPOST_ARM, OPBPOST_DEC. -/
def decodeT39 (r : Raw) (g : Guard) : Dec :=
  if r.x.getLsbD 0 then
    let d := Port.ofByte r.d
    let a := Port.ofByte r.a
    let b := Port.ofByte r.b
    build (kindErr (okFlgz d) d
      ++ kindErr (okIsrc a) a
      ++ kindErr (okIsrc b) b
      ++ unusedErr r.c
      ++ mustBe .malformed (r.x &&& 0x3FFFE#27 == 0#27)
      ++ mustBe .portKind (!r.e)) (.opbpostDec g d a b)
  else
    let d := Port.ofByte r.d
    let a := Port.ofByte r.a
    let b := Port.ofByte r.b
    let cnt := r.x.getLsbD 1
    build (kindErr (okFlgz d) d
      ++ kindErr (okIsrc a) a
      ++ kindErr (okIsrc b) b
      ++ unusedErr r.c
      ++ mustBe .malformed (r.x &&& 0x3FFFC#27 == 0#27)
      ++ mustBe .portKind (!r.e)
      ++ mustBe .malformed ((cnt || b == .s 0))) (.opbpostArm g d a b cnt)

/-- The T map (R52). -/
def decodeT (r : Raw) (g : Guard) : Dec :=
  match r.op.toNat with
  | 0x01 => decodeT01 r g
  | 0x02 => decodeT02 r g
  | 0x03 => decodeT03 r g
  | 0x04 => decodeT04 r g
  | 0x08 => decodeT08 r g
  | 0x09 => decodeT09 r g
  | 0x10 => decodeT10 r g
  | 0x11 => decodeT11 r g
  | 0x12 => decodeT12 r g
  | 0x13 => decodeT13 r g
  | 0x14 => decodeT14 r g
  | 0x20 => decodeT20 r g
  | 0x21 => decodeT21 r g
  | 0x22 => decodeT22 r g
  | 0x23 => decodeT23 r g
  | 0x24 => decodeT24 r g
  | 0x25 => decodeT25 r g
  | 0x30 => decodeT30 r g
  | 0x31 => decodeT31 r g
  | 0x32 => decodeT32 r g
  | 0x33 => decodeT33 r g
  | 0x38 => decodeT38 r g
  | 0x39 => decodeT39 r g
  | _ => .bad [.unassigned] none

/-- R53: code 0x01, BR. -/
def decodeC01 (r : Raw) (g : Guard) : Dec :=
  let disp := r.x.extractLsb' 0 27
  build (unusedErr r.d
    ++ unusedErr r.a
    ++ unusedErr r.b) (.br g disp)

/-- R53: code 0x02, BRC. -/
def decodeC02 (r : Raw) (g : Guard) : Dec :=
  let a := Port.ofByte r.a
  let condo := BrCond.ofCode (r.x.extractLsb' 24 3)
  let cond := condo.getD BrCond.first
  let disp := r.x.extractLsb' 0 24
  build (unusedErr r.d
    ++ kindErr (okIsrc a) a
    ++ unusedErr r.b
    ++ mustBe .malformed condo.isSome) (.brc g a cond disp)

/-- R53: code 0x03, CALL. -/
def decodeC03 (r : Raw) (g : Guard) : Dec :=
  let d := Port.ofByte r.d
  let disp := r.x.extractLsb' 0 27
  build (kindErr (okLnk d) d
    ++ unusedErr r.a
    ++ unusedErr r.b) (.call g d disp)

/-- R53: code 0x04, RET. -/
def decodeC04 (r : Raw) (g : Guard) : Dec :=
  let a := Port.ofByte r.a
  build (unusedErr r.d
    ++ kindErr (okTgt a) a
    ++ unusedErr r.b
    ++ unusedErr r.c
    ++ mustBe .malformed (r.x &&& 0x3FFFF#27 == 0#27)
    ++ mustBe .malformed (!r.e)) (.ret g a)

/-- R53: code 0x05, JR. -/
def decodeC05 (r : Raw) (g : Guard) : Dec :=
  let d := Port.ofByte r.d
  let a := Port.ofByte r.a
  build (kindErr (okLnk d) d
    ++ kindErr (okTgt a) a
    ++ unusedErr r.b
    ++ unusedErr r.c
    ++ mustBe .malformed (r.x &&& 0x3FFFF#27 == 0#27)
    ++ mustBe .malformed (!r.e)) (.jr g d a)

/-- R53: code 0x08, LOOP. -/
def decodeC08 (r : Raw) (g : Guard) : Dec :=
  let a := Port.ofByte r.a
  let edisp := r.x.extractLsb' 0 12
  build (unusedErr r.d
    ++ kindErr (okLcnt a) a
    ++ unusedErr r.b
    ++ mustBe .malformed (r.x &&& 0x7FFF000#27 == 0#27)) (.loop g a edisp)

/-- R53: code 0x09, LOOPL. -/
def decodeC09 (r : Raw) (g : Guard) : Dec :=
  let edisp := r.x.extractLsb' 0 12
  build (unusedErr r.d
    ++ unusedErr r.a
    ++ unusedErr r.b
    ++ mustBe .malformed (r.x &&& 0x7FFF000#27 == 0#27)) (.loopl g edisp)

/-- R53: code 0x0A, LOOPX. -/
def decodeC0A (r : Raw) (g : Guard) : Dec :=
  let n := r.x.extractLsb' 0 3
  build (unusedErr r.d
    ++ unusedErr r.a
    ++ unusedErr r.b
    ++ mustBe .malformed (r.x &&& 0x7FFFFF8#27 == 0#27)) (.loopx g n)

/-- R53: code 0x0B, END. -/
def decodeC0B (r : Raw) (g : Guard) : Dec :=
  build (unusedErr r.d
    ++ unusedErr r.a
    ++ unusedErr r.b
    ++ unusedErr r.c
    ++ mustBe .malformed (r.x &&& 0x3FFFF#27 == 0#27)
    ++ mustBe .malformed (!r.e)) (.fin g)

/-- R53: code 0x10, AWAIT. -/
def decodeC10 (r : Raw) (g : Guard) : Dec :=
  let d := Port.ofByte r.d
  let a := Port.ofByte r.a
  let b := Port.ofByte r.b
  let cons := r.x.getLsbD 0
  let e := r.e
  build (kindErr (okSdst .sy d) d
    ++ kindErr (okFlg a) a
    ++ kindErr (okIsrc b) b
    ++ unusedErr r.c
    ++ mustBe .malformed (r.x &&& 0x3FFFE#27 == 0#27)
    ++ mustBe .portKind (okEph e d)) (.await g e d a b cons)

/-- R53: code 0x11, POST. -/
def decodeC11 (r : Raw) (g : Guard) : Dec :=
  let d := Port.ofByte r.d
  let a := Port.ofByte r.a
  let b := Port.ofByte r.b
  let c := Port.ofByte r.c
  let sco := Scope.ofCode (r.x.extractLsb' 3 3)
  let sc := sco.getD Scope.first
  let rmt := r.x.getLsbD 2
  build (kindErr (okFlg d) d
    ++ kindErr (okIsrc a) a
    ++ kindErr (okIsrc b) b
    ++ kindErr (okIsrc c) c
    ++ mustBe .malformed sco.isSome
    ++ mustBe .malformed (r.x &&& 0x3FFC3#27 == 0#27)
    ++ mustBe .portKind (!r.e)
    ++ mustBe .malformed (okPostr rmt b c)) (.post g d a b c sc rmt)

/-- R53: code 0x12, SYNCD. -/
def decodeC12 (r : Raw) (g : Guard) : Dec :=
  let d := Port.ofByte r.d
  let lv := r.x.extractLsb' 0 3
  let e := r.e
  build (kindErr (okSdst .sy d) d
    ++ unusedErr r.a
    ++ unusedErr r.b
    ++ unusedErr r.c
    ++ mustBe .malformed (r.x &&& 0x3FFF8#27 == 0#27)
    ++ mustBe .portKind (okEph e d)
    ++ mustBe .malformed (decide (lv.toNat < 5))) (.syncd g e d lv)

/-- R53: code 0x13, YIELD. -/
def decodeC13 (r : Raw) (g : Guard) : Dec :=
  let d := Port.ofByte r.d
  let a := Port.ofByte r.a
  let e := r.e
  build (kindErr (okSdst .sy d) d
    ++ kindErr (okIsrc a) a
    ++ unusedErr r.b
    ++ unusedErr r.c
    ++ mustBe .malformed (r.x &&& 0x3FFFF#27 == 0#27)
    ++ mustBe .portKind (okEph e d)) (.yieldc g e d a)

/-- R53: code 0x14, WAITQ. -/
def decodeC14 (r : Raw) (g : Guard) : Dec :=
  let d := Port.ofByte r.d
  let a := Port.ofByte r.a
  let e := r.e
  build (kindErr (okSdst .sy d) d
    ++ kindErr (okIsrc a) a
    ++ unusedErr r.b
    ++ unusedErr r.c
    ++ mustBe .malformed (r.x &&& 0x3FFFF#27 == 0#27)
    ++ mustBe .portKind (okEph e d)) (.waitq g e d a)

/-- R53: code 0x15, FLUSHY. -/
def decodeC15 (r : Raw) (g : Guard) : Dec :=
  let d := Port.ofByte r.d
  let e := r.e
  build (kindErr (okSdst .sy d) d
    ++ unusedErr r.a
    ++ unusedErr r.b
    ++ unusedErr r.c
    ++ mustBe .malformed (r.x &&& 0x3FFFF#27 == 0#27)
    ++ mustBe .portKind (okEph e d)) (.flushy g e d)

/-- R53: code 0x18, MARK. -/
def decodeC18 (r : Raw) (g : Guard) : Dec :=
  let rel := r.x.getLsbD 26
  let exp := r.x.extractLsb' 0 26
  build (unusedErr r.d
    ++ unusedErr r.a
    ++ unusedErr r.b) (.mark g rel exp)

/-- R53: code 0x19, CKPT. -/
def decodeC19 (r : Raw) (g : Guard) : Dec :=
  let d := Port.ofByte r.d
  let e := r.e
  build (kindErr (okSdst .sy d) d
    ++ unusedErr r.a
    ++ unusedErr r.b
    ++ unusedErr r.c
    ++ mustBe .malformed (r.x &&& 0x3FFFF#27 == 0#27)
    ++ mustBe .portKind (okEph e d)) (.ckpt g e d)

/-- R53: code 0x1A, TRAP. -/
def decodeC1A (r : Raw) (g : Guard) : Dec :=
  let code := r.x.extractLsb' 0 16
  build (unusedErr r.d
    ++ unusedErr r.a
    ++ unusedErr r.b
    ++ mustBe .malformed (r.x &&& 0x7FF0000#27 == 0#27)) (.trap g code)

/-- R53: code 0x1B, BKPT. -/
def decodeC1B (r : Raw) (g : Guard) : Dec :=
  let btag := r.x.extractLsb' 0 16
  build (unusedErr r.d
    ++ unusedErr r.a
    ++ unusedErr r.b
    ++ mustBe .malformed (r.x &&& 0x7FF0000#27 == 0#27)) (.bkpt g btag)

/-- R53: code 0x1C, NOP. -/
def decodeC1C (r : Raw) (g : Guard) : Dec :=
  let count := r.x.extractLsb' 0 16
  build (unusedErr r.d
    ++ unusedErr r.a
    ++ unusedErr r.b
    ++ mustBe .malformed (r.x &&& 0x7FF0000#27 == 0#27)) (.nop g count)

/-- R53: code 0x20, SYSRD. -/
def decodeC20 (r : Raw) (g : Guard) : Dec :=
  let d := Port.ofByte r.d
  let a := Port.ofByte r.a
  let e := r.e
  build (sysOpErr (okSdst .sy d) d
    ++ sysErr a
    ++ unusedErr r.b
    ++ unusedErr r.c
    ++ mustBe .malformed (r.x &&& 0x3FFFF#27 == 0#27)
    ++ mustBe .portKind (okEph e d)) (.sysrd g e d a)

/-- R53: code 0x21, SYSWR. -/
def decodeC21 (r : Raw) (g : Guard) : Dec :=
  let d := Port.ofByte r.d
  let a := Port.ofByte r.a
  build (sysErr d
    ++ sysOpErr (okFsrc a) a
    ++ unusedErr r.b
    ++ unusedErr r.c
    ++ mustBe .malformed (r.x &&& 0x3FFFF#27 == 0#27)
    ++ mustBe .portKind (!r.e)) (.syswr g d a)

/-- R53: code 0x22, ERET. -/
def decodeC22 (r : Raw) (g : Guard) : Dec :=
  build (unusedErr r.d
    ++ unusedErr r.a
    ++ unusedErr r.b
    ++ unusedErr r.c
    ++ mustBe .malformed (r.x &&& 0x3FFFF#27 == 0#27)
    ++ mustBe .malformed (!r.e)) (.eret g)

/-- R53: code 0x23, SETDMR. -/
def decodeC23 (r : Raw) (g : Guard) : Dec :=
  let d := Port.ofByte r.d
  let a := Port.ofByte r.a
  let rd := r.x.getLsbD 0
  let e := r.e
  build (kindErr (okSdst .sy d) d
    ++ kindErr (okIsrc a) a
    ++ unusedErr r.b
    ++ unusedErr r.c
    ++ mustBe .malformed (r.x &&& 0x3FFFE#27 == 0#27)
    ++ mustBe .portKind (okEph e d)
    ++ mustBe .malformed ((!rd || a == .s 0))) (.setdmr g e d a rd)

/-- The C map (R53). -/
def decodeC (r : Raw) (g : Guard) : Dec :=
  match r.op.toNat with
  | 0x01 => decodeC01 r g
  | 0x02 => decodeC02 r g
  | 0x03 => decodeC03 r g
  | 0x04 => decodeC04 r g
  | 0x05 => decodeC05 r g
  | 0x08 => decodeC08 r g
  | 0x09 => decodeC09 r g
  | 0x0A => decodeC0A r g
  | 0x0B => decodeC0B r g
  | 0x10 => decodeC10 r g
  | 0x11 => decodeC11 r g
  | 0x12 => decodeC12 r g
  | 0x13 => decodeC13 r g
  | 0x14 => decodeC14 r g
  | 0x15 => decodeC15 r g
  | 0x18 => decodeC18 r g
  | 0x19 => decodeC19 r g
  | 0x1A => decodeC1A r g
  | 0x1B => decodeC1B r g
  | 0x1C => decodeC1C r g
  | 0x20 => decodeC20 r g
  | 0x21 => decodeC21 r g
  | 0x22 => decodeC22 r g
  | 0x23 => decodeC23 r g
  | _ => .bad [.unassigned] none

/-- A slot with a nonzero opcode, at a slot position: an illegal guard is reported beside the other reasons. -/
def decodeRaw (pos : Nat) (r : Raw) : Dec :=
  let g := Guard.ofCode r.g
  let dec :=
    match pos with
    | 0 => decodeS .sa0 r g
    | 1 => decodeS .sa1 r g
    | 2 => decodeM r g
    | 3 => decodeV r g
    | 4 => decodeD r g
    | 5 => decodeX r g
    | 6 => decodeT r g
    | _ => decodeC r g
  if g.wf then dec else
    match dec with
    | .ok i => .bad [.never] (some i)
    | .bad why i => .bad (.never :: why) i
    | .nop => .bad [.never] none
    | .stopOnly => .bad [.never] none

/-- The slot at a position (R29). -/
def decodeSlot (pos : Nat) (w : SlotWord) : Dec :=
  let r := Raw.ofBits w
  if r.op == 0#8 then
    if w.extractLsb' 0 55 == 0#55 then (if r.stop then .stopOnly else .nop) else .bad ((if (Guard.ofCode r.g).wf then [] else [.never]) ++ [.malformed]) none
  else decodeRaw pos r

/-- Slot `i` of a bundle occupies bits [64i + 63 : 64i] (R10). -/
def slotOf (w : BundleWord) (pos : Nat) : SlotWord := w.extractLsb' (64 * pos) 64

/-- The first slot of a bundle that is not a canonical no-operation, from position `pos` on; `fuel` positions are tried. -/
def firstSlot (w : BundleWord) (pos : Nat) : Nat → Option Instr
  | 0 => none
  | fuel + 1 =>
    match decodeSlot pos (slotOf w pos) with
    | .ok i => some i
    | .bad _ _ => none
    | .stopOnly => none
    | .nop => firstSlot w (pos + 1) fuel

/-- The fields of a slot instruction, and the slot position that holds it; an event has none. -/
def encodeRaw : Instr → Option (Nat × Raw)
  | .add u g e d a b => some (u.pos, 
      ⟨false, 0x01#8, g.code, d.toByte, a.toByte, b.toByte, xbit e 26⟩)
  | .addi u g d a imm => some (u.pos, 
      ⟨false, 0x02#8, g.code, d.toByte, a.toByte, 0#8, xput imm 0⟩)
  | .sub u g e d a b => some (u.pos, 
      ⟨false, 0x03#8, g.code, d.toByte, a.toByte, b.toByte, xbit e 26⟩)
  | .mul u g e d a b => some (u.pos, 
      ⟨false, 0x04#8, g.code, d.toByte, a.toByte, b.toByte, xbit e 26⟩)
  | .mulh u g e d a b => some (u.pos, 
      ⟨false, 0x05#8, g.code, d.toByte, a.toByte, b.toByte, xbit e 26⟩)
  | .mulhu u g e d a b => some (u.pos, 
      ⟨false, 0x06#8, g.code, d.toByte, a.toByte, b.toByte, xbit e 26⟩)
  | .div u g e d a b => some (u.pos, 
      ⟨false, 0x07#8, g.code, d.toByte, a.toByte, b.toByte, xbit e 26⟩)
  | .divu u g e d a b => some (u.pos, 
      ⟨false, 0x08#8, g.code, d.toByte, a.toByte, b.toByte, xbit e 26⟩)
  | .rem u g e d a b => some (u.pos, 
      ⟨false, 0x09#8, g.code, d.toByte, a.toByte, b.toByte, xbit e 26⟩)
  | .remu u g e d a b => some (u.pos, 
      ⟨false, 0x0A#8, g.code, d.toByte, a.toByte, b.toByte, xbit e 26⟩)
  | .and u g e d a b => some (u.pos, 
      ⟨false, 0x10#8, g.code, d.toByte, a.toByte, b.toByte, xbit e 26⟩)
  | .andn u g e d a b => some (u.pos, 
      ⟨false, 0x11#8, g.code, d.toByte, a.toByte, b.toByte, xbit e 26⟩)
  | .or u g e d a b => some (u.pos, 
      ⟨false, 0x12#8, g.code, d.toByte, a.toByte, b.toByte, xbit e 26⟩)
  | .xor u g e d a b => some (u.pos, 
      ⟨false, 0x13#8, g.code, d.toByte, a.toByte, b.toByte, xbit e 26⟩)
  | .shl u g e d a b => some (u.pos, 
      ⟨false, 0x14#8, g.code, d.toByte, a.toByte, b.toByte, xbit e 26⟩)
  | .shr u g e d a b => some (u.pos, 
      ⟨false, 0x15#8, g.code, d.toByte, a.toByte, b.toByte, xbit e 26⟩)
  | .sar u g e d a b => some (u.pos, 
      ⟨false, 0x16#8, g.code, d.toByte, a.toByte, b.toByte, xbit e 26⟩)
  | .rol u g e d a b => some (u.pos, 
      ⟨false, 0x17#8, g.code, d.toByte, a.toByte, b.toByte, xbit e 26⟩)
  | .min u g e d a b => some (u.pos, 
      ⟨false, 0x18#8, g.code, d.toByte, a.toByte, b.toByte, xbit e 26⟩)
  | .max u g e d a b => some (u.pos, 
      ⟨false, 0x19#8, g.code, d.toByte, a.toByte, b.toByte, xbit e 26⟩)
  | .minu u g e d a b => some (u.pos, 
      ⟨false, 0x1A#8, g.code, d.toByte, a.toByte, b.toByte, xbit e 26⟩)
  | .maxu u g e d a b => some (u.pos, 
      ⟨false, 0x1B#8, g.code, d.toByte, a.toByte, b.toByte, xbit e 26⟩)
  | .clz u g e d a => some (u.pos, 
      ⟨false, 0x20#8, g.code, d.toByte, a.toByte, 0#8, xbit e 26⟩)
  | .ctz u g e d a => some (u.pos, 
      ⟨false, 0x21#8, g.code, d.toByte, a.toByte, 0#8, xbit e 26⟩)
  | .popc u g e d a => some (u.pos, 
      ⟨false, 0x22#8, g.code, d.toByte, a.toByte, 0#8, xbit e 26⟩)
  | .brev u g e d a => some (u.pos, 
      ⟨false, 0x23#8, g.code, d.toByte, a.toByte, 0#8, xbit e 26⟩)
  | .mov u g e d a => some (u.pos, 
      ⟨false, 0x2A#8, g.code, d.toByte, a.toByte, 0#8, xbit e 26⟩)
  | .ext u g e d a sx bpos len1 => some (u.pos, 
      ⟨false, 0x24#8, g.code, d.toByte, a.toByte, 0#8, xbit e 26 ||| xbit sx 12 ||| xput bpos 6 ||| xput len1 0⟩)
  | .ins u g e d a b bpos len1 => some (u.pos, 
      ⟨false, 0x25#8, g.code, d.toByte, a.toByte, b.toByte, xbit e 26 ||| xput bpos 6 ||| xput len1 0⟩)
  | .sel u g e d a b c => some (u.pos, 
      ⟨false, 0x26#8, g.code, d.toByte, a.toByte, b.toByte, xbit e 26 ||| xput c.toByte 18⟩)
  | .cmp u g e d a b cond => some (u.pos, 
      ⟨false, 0x27#8, g.code, d.toByte, a.toByte, b.toByte, xbit e 26 ||| xput cond.code 0⟩)
  | .li u g d imm => some (u.pos, 
      ⟨false, 0x28#8, g.code, d.toByte, 0#8, 0#8, xput imm 0⟩)
  | .lih u g d imm => some (u.pos, Raw.ofWide 0x29#8 g.code d.toByte imm)
  | .pset u g d a => some (u.pos, 
      ⟨false, 0x30#8, g.code, d.toByte, a.toByte, 0#8, 0#27⟩)
  | .plog u g d a b tt => some (u.pos, 
      ⟨false, 0x31#8, g.code, d.toByte, a.toByte, b.toByte, xput tt 0⟩)
  | .fadd u g e d a b fmt rm => some (u.pos, 
      ⟨false, 0x40#8, g.code, d.toByte, a.toByte, b.toByte, xbit e 26 ||| xput fmt.code 14 ||| xput rm.code 11⟩)
  | .fsub u g e d a b fmt rm => some (u.pos, 
      ⟨false, 0x41#8, g.code, d.toByte, a.toByte, b.toByte, xbit e 26 ||| xput fmt.code 14 ||| xput rm.code 11⟩)
  | .fmul u g e d a b fmt rm => some (u.pos, 
      ⟨false, 0x42#8, g.code, d.toByte, a.toByte, b.toByte, xbit e 26 ||| xput fmt.code 14 ||| xput rm.code 11⟩)
  | .ffma u g e d a b c fmt rm => some (u.pos, 
      ⟨false, 0x43#8, g.code, d.toByte, a.toByte, b.toByte, xbit e 26 ||| xput c.toByte 18 ||| xput fmt.code 14 ||| xput rm.code 11⟩)
  | .fdiv u g e d a b fmt rm => some (u.pos, 
      ⟨false, 0x44#8, g.code, d.toByte, a.toByte, b.toByte, xbit e 26 ||| xput fmt.code 14 ||| xput rm.code 11⟩)
  | .fsqrt u g e d a fmt rm => some (u.pos, 
      ⟨false, 0x45#8, g.code, d.toByte, a.toByte, 0#8, xbit e 26 ||| xput fmt.code 14 ||| xput rm.code 11⟩)
  | .fmin u g e d a b fmt => some (u.pos, 
      ⟨false, 0x46#8, g.code, d.toByte, a.toByte, b.toByte, xbit e 26 ||| xput fmt.code 14⟩)
  | .fmax u g e d a b fmt => some (u.pos, 
      ⟨false, 0x47#8, g.code, d.toByte, a.toByte, b.toByte, xbit e 26 ||| xput fmt.code 14⟩)
  | .fcmp u g e d a b fmt cond => some (u.pos, 
      ⟨false, 0x48#8, g.code, d.toByte, a.toByte, b.toByte, xbit e 26 ||| xput fmt.code 14 ||| xput cond.code 0⟩)
  | .fcvt u g e d a dst rm src => some (u.pos, 
      ⟨false, 0x49#8, g.code, d.toByte, a.toByte, 0#8, xbit e 26 ||| xput dst.code 14 ||| xput rm.code 11 ||| xput src.code 7⟩)
  | .hget u g e d a sl => some (u.pos, 
      ⟨false, 0x50#8, g.code, d.toByte, a.toByte, 0#8, xbit e 26 ||| xput sl 0⟩)
  | .hset u g d a b sl => some (u.pos, 
      ⟨false, 0x51#8, g.code, d.toByte, a.toByte, b.toByte, xput sl 0⟩)
  | .hadv u g d a b dim => some (u.pos, 
      ⟨false, 0x52#8, g.code, d.toByte, a.toByte, b.toByte, xput dim 0⟩)
  | .lds g e d a c sz sx off => some (2, 
      ⟨false, 0x01#8, g.code, d.toByte, a.toByte, 0#8, xbit e 26 ||| xput c.toByte 18 ||| xput sz 13 ||| xbit sx 12 ||| xput off 0⟩)
  | .sts g a b c sz off => some (2, 
      ⟨false, 0x02#8, g.code, 0#8, a.toByte, b.toByte, xput c.toByte 18 ||| xput sz 13 ||| xput off 0⟩)
  | .tld g d a b c => some (2, 
      ⟨false, 0x08#8, g.code, d.toByte, a.toByte, b.toByte, xput c.toByte 18⟩)
  | .tst g d a b c => some (2, 
      ⟨false, 0x09#8, g.code, d.toByte, a.toByte, b.toByte, xput c.toByte 18⟩)
  | .tldg g d a b c => some (2, 
      ⟨false, 0x0A#8, g.code, d.toByte, a.toByte, b.toByte, xput c.toByte 18⟩)
  | .tsts g d a b c => some (2, 
      ⟨false, 0x0B#8, g.code, d.toByte, a.toByte, b.toByte, xput c.toByte 18⟩)
  | .atomAdd g e d a b sc lvl q64 off => some (2, 
      ⟨false, 0x10#8, g.code, d.toByte, a.toByte, b.toByte, xbit e 26 ||| xput sc.code 15 ||| xput lvl.code 13 ||| xbit q64 12 ||| xput off 0⟩)
  | .atomInc g e d a b sc lvl q64 off => some (2, 
      ⟨false, 0x11#8, g.code, d.toByte, a.toByte, b.toByte, xbit e 26 ||| xput sc.code 15 ||| xput lvl.code 13 ||| xbit q64 12 ||| xput off 0⟩)
  | .atomDec g e d a b sc lvl q64 off => some (2, 
      ⟨false, 0x12#8, g.code, d.toByte, a.toByte, b.toByte, xbit e 26 ||| xput sc.code 15 ||| xput lvl.code 13 ||| xbit q64 12 ||| xput off 0⟩)
  | .atomMin g e d a b sc lvl q64 uns off => some (2, 
      ⟨false, 0x13#8, g.code, d.toByte, a.toByte, b.toByte, xbit e 26 ||| xput sc.code 15 ||| xput lvl.code 13 ||| xbit q64 12 ||| xbit uns 11 ||| xput off 0⟩)
  | .atomMax g e d a b sc lvl q64 uns off => some (2, 
      ⟨false, 0x14#8, g.code, d.toByte, a.toByte, b.toByte, xbit e 26 ||| xput sc.code 15 ||| xput lvl.code 13 ||| xbit q64 12 ||| xbit uns 11 ||| xput off 0⟩)
  | .atomAnd g e d a b sc lvl q64 off => some (2, 
      ⟨false, 0x15#8, g.code, d.toByte, a.toByte, b.toByte, xbit e 26 ||| xput sc.code 15 ||| xput lvl.code 13 ||| xbit q64 12 ||| xput off 0⟩)
  | .atomOr g e d a b sc lvl q64 off => some (2, 
      ⟨false, 0x16#8, g.code, d.toByte, a.toByte, b.toByte, xbit e 26 ||| xput sc.code 15 ||| xput lvl.code 13 ||| xbit q64 12 ||| xput off 0⟩)
  | .atomXor g e d a b sc lvl q64 off => some (2, 
      ⟨false, 0x17#8, g.code, d.toByte, a.toByte, b.toByte, xbit e 26 ||| xput sc.code 15 ||| xput lvl.code 13 ||| xbit q64 12 ||| xput off 0⟩)
  | .atomXchg g e d a b sc lvl q64 off => some (2, 
      ⟨false, 0x18#8, g.code, d.toByte, a.toByte, b.toByte, xbit e 26 ||| xput sc.code 15 ||| xput lvl.code 13 ||| xbit q64 12 ||| xput off 0⟩)
  | .atomCas g e d a b c sc lvl q64 off => some (2, 
      ⟨false, 0x19#8, g.code, d.toByte, a.toByte, b.toByte, xbit e 26 ||| xput c.toByte 18 ||| xput sc.code 15 ||| xput lvl.code 13 ||| xbit q64 12 ||| xput off 0⟩)
  | .fence g sc => some (2, 
      ⟨false, 0x1C#8, g.code, 0#8, 0#8, 0#8, xput sc.code 15⟩)
  | .bset g d a b => some (2, 
      ⟨false, 0x20#8, g.code, d.toByte, a.toByte, b.toByte, 0#27⟩)
  | .bpush g d a => some (2, 
      ⟨false, 0x21#8, g.code, d.toByte, a.toByte, 0#8, 0#27⟩)
  | .bpop g d a => some (2, 
      ⟨false, 0x22#8, g.code, d.toByte, a.toByte, 0#8, 0#27⟩)
  | .bqry g e d a sl => some (2, 
      ⟨false, 0x23#8, g.code, d.toByte, a.toByte, 0#8, xbit e 26 ||| xput sl 0⟩)
  | .vadd g d a b rm rf nl => some (3, 
      ⟨false, 0x01#8, g.code, d.toByte, a.toByte, b.toByte, xput rm.code 11 ||| xput rf 5 ||| xput nl 0⟩)
  | .vsub g d a b rm rf nl => some (3, 
      ⟨false, 0x02#8, g.code, d.toByte, a.toByte, b.toByte, xput rm.code 11 ||| xput rf 5 ||| xput nl 0⟩)
  | .vmul g d a b rm rf nl => some (3, 
      ⟨false, 0x03#8, g.code, d.toByte, a.toByte, b.toByte, xput rm.code 11 ||| xput rf 5 ||| xput nl 0⟩)
  | .vfma g d a b c rm rf nl => some (3, 
      ⟨false, 0x04#8, g.code, d.toByte, a.toByte, b.toByte, xput c.toByte 18 ||| xput rm.code 11 ||| xput rf 5 ||| xput nl 0⟩)
  | .vmin g d a b rf nl => some (3, 
      ⟨false, 0x05#8, g.code, d.toByte, a.toByte, b.toByte, xput rf 5 ||| xput nl 0⟩)
  | .vmax g d a b rf nl => some (3, 
      ⟨false, 0x06#8, g.code, d.toByte, a.toByte, b.toByte, xput rf 5 ||| xput nl 0⟩)
  | .vabs g d a rf nl => some (3, 
      ⟨false, 0x07#8, g.code, d.toByte, a.toByte, 0#8, xput rf 5 ||| xput nl 0⟩)
  | .vneg g d a rf nl => some (3, 
      ⟨false, 0x08#8, g.code, d.toByte, a.toByte, 0#8, xput rf 5 ||| xput nl 0⟩)
  | .vcmp g d a b cond rf nl => some (3, 
      ⟨false, 0x09#8, g.code, d.toByte, a.toByte, b.toByte, xput cond.code 14 ||| xput rf 5 ||| xput nl 0⟩)
  | .vsel g d a b c rf nl => some (3, 
      ⟨false, 0x0A#8, g.code, d.toByte, a.toByte, b.toByte, xput c.toByte 18 ||| xput rf 5 ||| xput nl 0⟩)
  | .vand g d a b rf nl => some (3, 
      ⟨false, 0x10#8, g.code, d.toByte, a.toByte, b.toByte, xput rf 5 ||| xput nl 0⟩)
  | .vor g d a b rf nl => some (3, 
      ⟨false, 0x11#8, g.code, d.toByte, a.toByte, b.toByte, xput rf 5 ||| xput nl 0⟩)
  | .vxor g d a b rf nl => some (3, 
      ⟨false, 0x12#8, g.code, d.toByte, a.toByte, b.toByte, xput rf 5 ||| xput nl 0⟩)
  | .vshl g d a b rf nl => some (3, 
      ⟨false, 0x13#8, g.code, d.toByte, a.toByte, b.toByte, xput rf 5 ||| xput nl 0⟩)
  | .vshr g d a b ar rf nl => some (3, 
      ⟨false, 0x14#8, g.code, d.toByte, a.toByte, b.toByte, xbit ar 14 ||| xput rf 5 ||| xput nl 0⟩)
  | .vcvt g d a b fmt rm rf nl => some (3, 
      ⟨false, 0x18#8, g.code, d.toByte, a.toByte, b.toByte, xput fmt.code 14 ||| xput rm.code 11 ||| xput rf 5 ||| xput nl 0⟩)
  | .vqnt g d a b fmt rm rf nl => some (3, 
      ⟨false, 0x19#8, g.code, d.toByte, a.toByte, b.toByte, xput fmt.code 14 ||| xput rm.code 11 ||| xput rf 5 ||| xput nl 0⟩)
  | .vdq g d a b c fmt rm rf nl => some (3, 
      ⟨false, 0x1A#8, g.code, d.toByte, a.toByte, b.toByte, xput c.toByte 18 ||| xput fmt.code 14 ||| xput rm.code 11 ||| xput rf 5 ||| xput nl 0⟩)
  | .vaddp8 g d a b fmt rf nl => some (3, 
      ⟨false, 0x1C#8, g.code, d.toByte, a.toByte, b.toByte, xput fmt.code 14 ||| xput rf 5 ||| xput nl 0⟩)
  | .vmulp8 g d a b fmt rf nl => some (3, 
      ⟨false, 0x1D#8, g.code, d.toByte, a.toByte, b.toByte, xput fmt.code 14 ||| xput rf 5 ||| xput nl 0⟩)
  | .vbcast g d a fmt rf nl => some (3, 
      ⟨false, 0x20#8, g.code, d.toByte, a.toByte, 0#8, xput fmt.code 14 ||| xput rf 5 ||| xput nl 0⟩)
  | .vrow g d a sf rf nl => some (3, 
      ⟨false, 0x21#8, g.code, d.toByte, a.toByte, 0#8, xput sf 11 ||| xput rf 5 ||| xput nl 0⟩)
  | .vrowRel g d => some (3, 
      ⟨false, 0x21#8, g.code, d.toByte, 0#8, 0#8, xbit true 17⟩)
  | .vperm g d a b rf nl => some (3, 
      ⟨false, 0x22#8, g.code, d.toByte, a.toByte, b.toByte, xput rf 5 ||| xput nl 0⟩)
  | .vsum g e d a rm rf nl => some (3, 
      ⟨false, 0x28#8, g.code, d.toByte, a.toByte, 0#8, xbit e 26 ||| xput rm.code 11 ||| xput rf 5 ||| xput nl 0⟩)
  | .vmaxr g e d a arg rf nl => some (3, 
      ⟨false, 0x29#8, g.code, d.toByte, a.toByte, 0#8, xbit e 26 ||| xbit arg 14 ||| xput rf 5 ||| xput nl 0⟩)
  | .vmred g d a b cop rm rf nl => some (3, 
      ⟨false, 0x2A#8, g.code, d.toByte, a.toByte, b.toByte, xput cop.code 14 ||| xput rm.code 11 ||| xput rf 5 ||| xput nl 0⟩)
  | .vmscan g d a b cop rm rf nl => some (3, 
      ⟨false, 0x2B#8, g.code, d.toByte, a.toByte, b.toByte, xput cop.code 14 ||| xput rm.code 11 ||| xput rf 5 ||| xput nl 0⟩)
  | .vband g d a b rf nl => some (3, 
      ⟨false, 0x30#8, g.code, d.toByte, a.toByte, b.toByte, xput rf 5 ||| xput nl 0⟩)
  | .vpopc g d a rf nl => some (3, 
      ⟨false, 0x31#8, g.code, d.toByte, a.toByte, 0#8, xput rf 5 ||| xput nl 0⟩)
  | .vpfx g d a b rf nl => some (3, 
      ⟨false, 0x32#8, g.code, d.toByte, a.toByte, b.toByte, xput rf 5 ||| xput nl 0⟩)
  | .visect g e d a b c rf nl => some (3, 
      ⟨false, 0x33#8, g.code, d.toByte, a.toByte, b.toByte, xbit e 26 ||| xput c.toByte 18 ||| xput rf 5 ||| xput nl 0⟩)
  | .vlsem g d a b rf nl => some (3, 
      ⟨false, 0x38#8, g.code, d.toByte, a.toByte, b.toByte, xput rf 5 ||| xput nl 0⟩)
  | .exp2 g d a rf nl => some (4, 
      ⟨false, 0x40#8, g.code, d.toByte, a.toByte, 0#8, xput rf 5 ||| xput nl 0⟩)
  | .log2 g d a rf nl => some (4, 
      ⟨false, 0x41#8, g.code, d.toByte, a.toByte, 0#8, xput rf 5 ||| xput nl 0⟩)
  | .rcp g d a rm rf nl => some (4, 
      ⟨false, 0x42#8, g.code, d.toByte, a.toByte, 0#8, xput rm.code 11 ||| xput rf 5 ||| xput nl 0⟩)
  | .rsqrt g d a rm rf nl => some (4, 
      ⟨false, 0x43#8, g.code, d.toByte, a.toByte, 0#8, xput rm.code 11 ||| xput rf 5 ||| xput nl 0⟩)
  | .sqrt g d a rm rf nl => some (4, 
      ⟨false, 0x44#8, g.code, d.toByte, a.toByte, 0#8, xput rm.code 11 ||| xput rf 5 ||| xput nl 0⟩)
  | .sin g d a rf nl => some (4, 
      ⟨false, 0x45#8, g.code, d.toByte, a.toByte, 0#8, xput rf 5 ||| xput nl 0⟩)
  | .cos g d a rf nl => some (4, 
      ⟨false, 0x46#8, g.code, d.toByte, a.toByte, 0#8, xput rf 5 ||| xput nl 0⟩)
  | .tanh g d a rf nl => some (4, 
      ⟨false, 0x47#8, g.code, d.toByte, a.toByte, 0#8, xput rf 5 ||| xput nl 0⟩)
  | .dfrom g d a rf => some (4, 
      ⟨false, 0x01#8, g.code, d.toByte, a.toByte, 0#8, xput rf 5⟩)
  | .dto g d a fmt rm rf => some (4, 
      ⟨false, 0x02#8, g.code, d.toByte, a.toByte, 0#8, xput fmt.code 14 ||| xput rm.code 11 ||| xput rf 5⟩)
  | .dcos g e d a b => some (4, 
      ⟨false, 0x03#8, g.code, d.toByte, a.toByte, b.toByte, xbit e 26⟩)
  | .ddotw g e d a b => some (4, 
      ⟨false, 0x04#8, g.code, d.toByte, a.toByte, b.toByte, xbit e 26⟩)
  | .dscl g d a b => some (4, 
      ⟨false, 0x05#8, g.code, d.toByte, a.toByte, b.toByte, 0#27⟩)
  | .dadd g d a b => some (4, 
      ⟨false, 0x06#8, g.code, d.toByte, a.toByte, b.toByte, 0#27⟩)
  | .dsub g d a b => some (4, 
      ⟨false, 0x07#8, g.code, d.toByte, a.toByte, b.toByte, 0#27⟩)
  | .dlerp g d a b c => some (4, 
      ⟨false, 0x08#8, g.code, d.toByte, a.toByte, b.toByte, xput c.toByte 18⟩)
  | .dneg g d a => some (4, 
      ⟨false, 0x09#8, g.code, d.toByte, a.toByte, 0#8, 0#27⟩)
  | .dcmp g e d a b c act1 act0 act cond => some (4, 
      ⟨false, 0x0A#8, g.code, d.toByte, a.toByte, b.toByte, xbit e 26 ||| xput c.toByte 18 ||| xput act1 9 ||| xput act0 7 ||| xbit act 4 ||| xput cond.code 0⟩)
  | .dnget g e d a => some (4, 
      ⟨false, 0x0B#8, g.code, d.toByte, a.toByte, 0#8, xbit e 26⟩)
  | .dnset g d a => some (4, 
      ⟨false, 0x0C#8, g.code, d.toByte, a.toByte, 0#8, 0#27⟩)
  | .dsplit g d a b => some (4, 
      ⟨false, 0x0D#8, g.code, d.toByte, a.toByte, b.toByte, 0#27⟩)
  | .djoin g e d a b => some (4, 
      ⟨false, 0x0E#8, g.code, d.toByte, a.toByte, b.toByte, xbit e 26⟩)
  | .mzero g d fmt => some (5, 
      ⟨false, 0x01#8, g.code, d.toByte, 0#8, 0#8, xput fmt.code 14⟩)
  | .mload g d a keep => some (5, 
      ⟨false, 0x02#8, g.code, d.toByte, a.toByte, 0#8, xbit keep 0⟩)
  | .mma g d a b c f ka kb depth => some (5, 
      ⟨false, 0x03#8, g.code, d.toByte, a.toByte, b.toByte, xput c.toByte 18 ||| xput f.toByte 10 ||| xbit ka 9 ||| xbit kb 8 ||| xput depth 0⟩)
  | .mmat g d a b c f ka kb depth => some (5, 
      ⟨false, 0x04#8, g.code, d.toByte, a.toByte, b.toByte, xput c.toByte 18 ||| xput f.toByte 10 ||| xbit ka 9 ||| xbit kb 8 ||| xput depth 0⟩)
  | .mmask g a b => some (5, 
      ⟨false, 0x05#8, g.code, 0#8, a.toByte, b.toByte, 0#27⟩)
  | .mdrain g d a b rm => some (5, 
      ⟨false, 0x06#8, g.code, d.toByte, a.toByte, b.toByte, xput rm.code 11⟩)
  | .mstep g d a b c steps1 => some (5, 
      ⟨false, 0x07#8, g.code, d.toByte, a.toByte, b.toByte, xput c.toByte 18 ||| xput steps1 0⟩)
  | .mstash g d a b c => some (5, 
      ⟨false, 0x08#8, g.code, d.toByte, a.toByte, b.toByte, xput c.toByte 18⟩)
  | .munst g d a b c => some (5, 
      ⟨false, 0x09#8, g.code, d.toByte, a.toByte, b.toByte, xput c.toByte 18⟩)
  | .mfmt g d a b fmt rm => some (5, 
      ⟨false, 0x0A#8, g.code, d.toByte, a.toByte, b.toByte, xput fmt.code 14 ||| xput rm.code 11⟩)
  | .mqry g e d a sl => some (5, 
      ⟨false, 0x0B#8, g.code, d.toByte, a.toByte, 0#8, xbit e 26 ||| xput sl 0⟩)
  | .msync g => some (5, 
      ⟨false, 0x0C#8, g.code, 0#8, 0#8, 0#8, 0#27⟩)
  | .tmv g d a b => some (6, 
      ⟨false, 0x01#8, g.code, d.toByte, a.toByte, b.toByte, 0#27⟩)
  | .cpy g d a b c sc => some (6, 
      ⟨false, 0x02#8, g.code, d.toByte, a.toByte, b.toByte, xput c.toByte 18 ||| xput sc.code 3⟩)
  | .cpyl g d a b sc stop llvl => some (6, 
      ⟨false, 0x03#8, g.code, d.toByte, a.toByte, b.toByte, xput sc.code 3 ||| xbit stop 2 ||| xput llvl.code 0⟩)
  | .cpyq g e d sl => some (6, 
      ⟨false, 0x04#8, g.code, d.toByte, 0#8, 0#8, xbit e 26 ||| xput sl 0⟩)
  | .hqpush g d a b => some (6, 
      ⟨false, 0x08#8, g.code, d.toByte, a.toByte, b.toByte, 0#27⟩)
  | .hqpop g d a b => some (6, 
      ⟨false, 0x09#8, g.code, d.toByte, a.toByte, b.toByte, 0#27⟩)
  | .rcmp g d a b c sh sth rsel rbase => some (6, 
      ⟨false, 0x10#8, g.code, d.toByte, a.toByte, b.toByte, xput c.toByte 18 ||| xput sh 13 ||| xbit sth 12 ||| xput rsel.code 10 ||| xput rbase 0⟩)
  | .rrst g d a b c rbase => some (6, 
      ⟨false, 0x11#8, g.code, d.toByte, a.toByte, b.toByte, xput c.toByte 18 ||| xput rbase 0⟩)
  | .rpred g d a b c ronly rdef blk => some (6, 
      ⟨false, 0x12#8, g.code, d.toByte, a.toByte, b.toByte, xput c.toByte 18 ||| xbit ronly 13 ||| xput rdef 10 ||| xput blk 0⟩)
  | .rset g d a b c v => some (6, 
      ⟨false, 0x13#8, g.code, d.toByte, a.toByte, b.toByte, xput c.toByte 18 ||| xput v 0⟩)
  | .rsetCfg g a => some (6, 
      ⟨false, 0x13#8, g.code, 0#8, a.toByte, 0#8, xbit true 17⟩)
  | .rcnt g e d a b sl => some (6, 
      ⟨false, 0x14#8, g.code, d.toByte, a.toByte, b.toByte, xbit e 26 ||| xput sl 0⟩)
  | .kvapp g d a b cel => some (6, 
      ⟨false, 0x20#8, g.code, d.toByte, a.toByte, b.toByte, xbit cel 0⟩)
  | .kvappGap g d a b c cel => some (6, 
      ⟨false, 0x20#8, g.code, d.toByte, a.toByte, b.toByte, xput c.toByte 18 ||| xbit cel 0 ||| xbit true 1⟩)
  | .kvcomAcc g d a b cel => some (6, 
      ⟨false, 0x21#8, g.code, d.toByte, a.toByte, b.toByte, xbit cel 0⟩)
  | .kvcomSet g d a b cel => some (6, 
      ⟨false, 0x21#8, g.code, d.toByte, a.toByte, b.toByte, xbit cel 0 ||| xbit true 2⟩)
  | .kvtent g e d a cel => some (6, 
      ⟨false, 0x22#8, g.code, d.toByte, a.toByte, 0#8, xbit e 26 ||| xbit cel 0⟩)
  | .kvroll g d a cel => some (6, 
      ⟨false, 0x23#8, g.code, d.toByte, a.toByte, 0#8, xbit cel 0⟩)
  | .kvrscl g d a b cel => some (6, 
      ⟨false, 0x24#8, g.code, d.toByte, a.toByte, b.toByte, xbit cel 0⟩)
  | .kvfill g d a b c cel => some (6, 
      ⟨false, 0x25#8, g.code, d.toByte, a.toByte, b.toByte, xput c.toByte 18 ||| xbit cel 0⟩)
  | .attn g d a b c cel => some (6, 
      ⟨false, 0x30#8, g.code, d.toByte, a.toByte, b.toByte, xput c.toByte 18 ||| xbit cel 0⟩)
  | .shsend g d a b cel => some (6, 
      ⟨false, 0x31#8, g.code, d.toByte, a.toByte, b.toByte, xbit cel 0⟩)
  | .shrecv g d a cel => some (6, 
      ⟨false, 0x32#8, g.code, d.toByte, a.toByte, 0#8, xbit cel 0⟩)
  | .exitn g d a b => some (6, 
      ⟨false, 0x33#8, g.code, d.toByte, a.toByte, b.toByte, 0#27⟩)
  | .ovl g d a b frc ovn oslot => some (6, 
      ⟨false, 0x38#8, g.code, d.toByte, a.toByte, b.toByte, xbit frc 10 ||| xput ovn 2 ||| xput oslot 0⟩)
  | .opbpostArm g d a b cnt => some (6, 
      ⟨false, 0x39#8, g.code, d.toByte, a.toByte, b.toByte, xbit cnt 1⟩)
  | .opbpostDec g d a b => some (6, 
      ⟨false, 0x39#8, g.code, d.toByte, a.toByte, b.toByte, xbit true 0⟩)
  | .br g disp => some (7, 
      ⟨false, 0x01#8, g.code, 0#8, 0#8, 0#8, xput disp 0⟩)
  | .brc g a cond disp => some (7, 
      ⟨false, 0x02#8, g.code, 0#8, a.toByte, 0#8, xput cond.code 24 ||| xput disp 0⟩)
  | .call g d disp => some (7, 
      ⟨false, 0x03#8, g.code, d.toByte, 0#8, 0#8, xput disp 0⟩)
  | .ret g a => some (7, 
      ⟨false, 0x04#8, g.code, 0#8, a.toByte, 0#8, 0#27⟩)
  | .jr g d a => some (7, 
      ⟨false, 0x05#8, g.code, d.toByte, a.toByte, 0#8, 0#27⟩)
  | .loop g a edisp => some (7, 
      ⟨false, 0x08#8, g.code, 0#8, a.toByte, 0#8, xput edisp 0⟩)
  | .loopl g edisp => some (7, 
      ⟨false, 0x09#8, g.code, 0#8, 0#8, 0#8, xput edisp 0⟩)
  | .loopx g n => some (7, 
      ⟨false, 0x0A#8, g.code, 0#8, 0#8, 0#8, xput n 0⟩)
  | .fin g => some (7, 
      ⟨false, 0x0B#8, g.code, 0#8, 0#8, 0#8, 0#27⟩)
  | .await g e d a b cons => some (7, 
      ⟨false, 0x10#8, g.code, d.toByte, a.toByte, b.toByte, xbit e 26 ||| xbit cons 0⟩)
  | .post g d a b c sc rmt => some (7, 
      ⟨false, 0x11#8, g.code, d.toByte, a.toByte, b.toByte, xput c.toByte 18 ||| xput sc.code 3 ||| xbit rmt 2⟩)
  | .syncd g e d lv => some (7, 
      ⟨false, 0x12#8, g.code, d.toByte, 0#8, 0#8, xbit e 26 ||| xput lv 0⟩)
  | .yieldc g e d a => some (7, 
      ⟨false, 0x13#8, g.code, d.toByte, a.toByte, 0#8, xbit e 26⟩)
  | .waitq g e d a => some (7, 
      ⟨false, 0x14#8, g.code, d.toByte, a.toByte, 0#8, xbit e 26⟩)
  | .flushy g e d => some (7, 
      ⟨false, 0x15#8, g.code, d.toByte, 0#8, 0#8, xbit e 26⟩)
  | .mark g rel exp => some (7, 
      ⟨false, 0x18#8, g.code, 0#8, 0#8, 0#8, xbit rel 26 ||| xput exp 0⟩)
  | .ckpt g e d => some (7, 
      ⟨false, 0x19#8, g.code, d.toByte, 0#8, 0#8, xbit e 26⟩)
  | .trap g code => some (7, 
      ⟨false, 0x1A#8, g.code, 0#8, 0#8, 0#8, xput code 0⟩)
  | .bkpt g btag => some (7, 
      ⟨false, 0x1B#8, g.code, 0#8, 0#8, 0#8, xput btag 0⟩)
  | .nop g count => some (7, 
      ⟨false, 0x1C#8, g.code, 0#8, 0#8, 0#8, xput count 0⟩)
  | .sysrd g e d a => some (7, 
      ⟨false, 0x20#8, g.code, d.toByte, a.toByte, 0#8, xbit e 26⟩)
  | .syswr g d a => some (7, 
      ⟨false, 0x21#8, g.code, d.toByte, a.toByte, 0#8, 0#27⟩)
  | .eret g => some (7, 
      ⟨false, 0x22#8, g.code, 0#8, 0#8, 0#8, 0#27⟩)
  | .setdmr g e d a rd => some (7, 
      ⟨false, 0x23#8, g.code, d.toByte, a.toByte, 0#8, xbit e 26 ||| xbit rd 0⟩)
  | .resultLanding _ => none
  | .ephemeralExpiry _ _ => none
  | .bankRefresh _ => none
  | .groupWaitEnd _ => none
  | .vectorRowStart _ _ => none
  | .vectorRowLanding _ => none
  | .pairNormLanding _ => none
  | .pairDirectionLanding _ => none
  | .mxOperationStart _ => none
  | .mxOperationRetire _ => none
  | .mstepStepEnd _ => none
  | .munstRowsLand _ => none
  | .mstashWritesComplete _ => none
  | .fillSlotLanded _ _ _ => none
  | .transferStart _ _ => none
  | .transferComplete _ _ => none
  | .storeSlotPop _ _ => none
  | .copyCommandTake _ => none
  | .engineWaitEnd _ => none
  | .copyItemComplete _ => none
  | .incrementArrival _ => none
  | .pibwinRead _ => none
  | .kwinWrite _ _ => none
  | .ksatWrite _ _ => none
  | .atomPerform _ => none
  | .atomComplete _ => none
  | .fenceComplete _ => none
  | .postSend _ => none
  | .epochMarkerApply _ _ => none
  | .rowInstructionStart _ => none
  | .rowInstructionComplete _ => none
  | .tmRequestSend _ => none
  | .cellarRequestPerform _ _ => none
  | .cellarRequestComplete _ _ => none
  | .permitGrant _ _ => none
  | .microBatchPerform _ _ => none
  | .microBatchDeliver _ _ => none
  | .shstWrite _ _ => none
  | .noticeAppend _ => none
  | .exitnAck _ => none
  | .hqEntryMove _ => none
  | .coreRelease _ => none
  | .stepstWrite _ _ => none
  | .armingPerform _ => none
  | .taskPlace _ _ _ => none
  | .stepDispatch _ _ _ => none
  | .stepStart _ => none
  | .taskDone _ _ => none
  | .taskFailed _ _ => none
  | .dieCountChange _ _ _ => none
  | .contextResume _ => none
  | .trapEntry _ => none
  | .doubleTrap _ => none
  | .breakpointFire _ _ => none
  | .preemptionLanding _ => none
  | .contextSwitchDue _ => none
  | .spill _ => none
  | .spillsp _ => none
  | .fill _ => none
  | .fillsp _ => none
  | .swout _ => none
  | .swin _ => none
  | .uncorrectableError _ _ => none
  | .atagWrite _ _ => none
  | .scycWrite _ _ => none
  | .ephstWrite _ _ => none
  | .seqstWrite _ _ => none
  | .lswinWrite _ _ => none
  | .istagWrite _ _ _ => none
  | .dsccmdWrite _ _ => none
  | .discardMarkDone _ => none
  | .reelwinWrite _ _ => none
  | .traceRecordWrite _ => none
  | .replayCheckpoint _ => none
  | .doorbellWrite _ _ _ => none
  | .commandFetch _ => none
  | .commandFetchRetry _ => none
  | .arm _ _ _ _ => none
  | .dec _ _ _ => none
  | .inval _ _ _ _ => none
  | .invalComplete _ => none
  | .dbgstop _ _ => none
  | .attest _ _ _ => none
  | .psetup _ _ _ => none
  | .ptear _ _ => none
  | .scrconsWrite _ _ => none
  | .stepRingAppend _ => none
  | .bar4Access _ _ => none
  | .moduleReset _ => none
  | .thermalThrottle _ _ => none
  | .thermalStop _ => none
  | .correctableError _ => none
  | .qcfgWrite _ _ _ => none
  | .replay _ _ => none
  | .groupDomainArrival _ _ _ _ => none
  | .noticeTargetUnreachable _ => none
  | .powerRemoval => none

/-- The 64 bits of a well-formed slot instruction with its stop bit, and its position. -/
def encodeSlot (stop : Bool) (i : Instr) : Option (Nat × SlotWord) :=
  (encodeRaw i).map fun (pos, r) => (pos, { r with stop := stop }.toBits)

/-- The bundle that holds one slot, closed by its own stop bit, and canonical no-operations otherwise. -/
def encode (i : Instr) : Option BundleWord :=
  (encodeSlot true i).map fun (pos, w) => (w.setWidth 512) <<< (64 * pos)

/-- The instruction the decoder reads from a bundle whose bits are `w` (bit 0 the least significant bit of its first
byte, little-endian: R10), all bits above `nbits` being 0: its first slot that is not a canonical no-operation. -/
def decodeTableWord (_nbits w : Nat) : Option Instr := firstSlot (BitVec.ofNat 512 w) 0 8

end Sys2Proof
end

