-- ==== Sys2Proof/Machine/Flags.lean ====
section
/-! DEFINITION. Machine/Flags.lean: number formats, exact values, the one rounding, and the arithmetic flags each raises
(R61 to R75, R90). -/

namespace Sys2Proof.Machine

/-- A set of the flags of AFL[7:0] (R77). -/
abbrev FlagSet := BitVec 8

def fIV : FlagSet := 1#8
def fDZ : FlagSet := 2#8
def fOF : FlagSet := 4#8
def fUF : FlagSet := 8#8
def fNX : FlagSet := 16#8
def fRG : FlagSet := 32#8
def fSO : FlagSet := 64#8
def fEX : FlagSet := 128#8

/-- The flag when the condition holds. -/
def flagIf (c : Bool) (f : FlagSet) : FlagSet := if c then f else 0#8

/-- An exact value: `fin n m e` is (−1)^n · m · 2^e. A NaN carries whether reading or forming it is invalid (R64, R70). -/
inductive FV where
  | nan (invalid : Bool)
  | inf (neg : Bool)
  | fin (neg : Bool) (m : Nat) (e : Int)
deriving DecidableEq, Repr

/-! ## Formats (R61 to R64) -/

/-- Element width in bits (R61). -/
def fmtWidth : Fmt → Nat
  | .f32 | .i32 | .lnorm => 32
  | .f64 => 64
  | .f16 | .bf16 | .q214 => 16
  | .e4m3 | .e5m2 | .i8 | .g8 => 8
  | .i4 | .g4 => 4

/-- Exponent and fraction widths of a floating-point format (R62); binary32's for any other. -/
def fmtExp : Fmt → Nat
  | .f64 => 11 | .f16 => 5 | .bf16 => 8 | .e4m3 => 4 | .e5m2 => 5 | _ => 8
def fmtFrac : Fmt → Nat
  | .f64 => 52 | .f16 => 10 | .bf16 => 7 | .e4m3 => 3 | .e5m2 => 2 | _ => 23
/-- Exponent bias (R62). -/
def fmtBias : Fmt → Nat
  | .f64 => 1023 | .f16 => 15 | .bf16 => 127 | .e4m3 => 7 | .e5m2 => 15 | _ => 127
/-- Canonical NaN (R69). -/
def canonNaN : Fmt → Nat
  | .f64 => 0x7FF8000000000000 | .f16 => 0x7E00 | .bf16 => 0x7FC0 | .e4m3 => 0x7F | .e5m2 => 0x7E | _ => 0x7FC00000
/-- Largest finite magnitude, as (mantissa, exponent) (R62). -/
def maxFinite (f : Fmt) : Nat × Int :=
  match f with
  | .e4m3 => (14, 5)
  | _ => (2 ^ (fmtFrac f + 1) - 1, (2 ^ (fmtExp f) : Nat) - 2 - fmtBias f - fmtFrac f)
/-- Encoding of the largest finite magnitude. -/
def maxFiniteBits (f : Fmt) : Nat :=
  match f with
  | .e4m3 => 0x7E
  | _ => (2 ^ fmtExp f - 1) * 2 ^ fmtFrac f - 1
/-- Encoding of +∞; E4M3 has none, and takes its NaN or its limit instead (R73). -/
def infBits (f : Fmt) : Nat := (2 ^ fmtExp f - 1) * 2 ^ fmtFrac f
/-- The sign bit of a format. -/
def signBit (f : Fmt) : Nat := 2 ^ (fmtExp f + fmtFrac f)

/-- The value of an encoding (R63, R64). -/
def unpack (f : Fmt) (x : Nat) : FV :=
  let fr := x % 2 ^ fmtFrac f
  let ex := (x / 2 ^ fmtFrac f) % 2 ^ fmtExp f
  let neg := (x / signBit f) % 2 == 1
  let top := 2 ^ fmtExp f - 1
  if ex = 0 then .fin neg fr (1 - (fmtBias f : Int) - fmtFrac f)
  else if f = .e4m3 then
    if ex = top ∧ fr = 7 then .nan true else .fin neg (fr + 8) ((ex : Int) - 7 - 3)
  else if ex = top then
    if fr = 0 then .inf neg else .nan (f = .e5m2 || !fr.testBit (fmtFrac f - 1))
  else .fin neg (fr + 2 ^ fmtFrac f) ((ex : Int) - fmtBias f - fmtFrac f)

/-- An E4M3 subnormal read as a zero of its sign when FZ8 is 1 (R71). -/
def unpackFz (fz : Bool) (f : Fmt) (x : Nat) : FV :=
  match unpack f x with
  | .fin n m e => if fz && f == .e4m3 && decide (m < 8) then .fin n 0 e else .fin n m e
  | v => v

/-! ## The one rounding (R72 to R74) -/

/-- An integer part and what was cut off, rounded: `cmp` says whether the remainder is below, at or above a half. -/
def roundUp (rm : Rnd) (neg odd inexact : Bool) (cmp : Ordering) : Bool :=
  match rm with
  | .rne | .sr => cmp == .gt || (cmp == .eq && odd)
  | .rtz => false
  | .rup => inexact && !neg
  | .rdn => inexact && neg

/-- m · 2^e rounded to a multiple of 2^q: the multiplier and whether it was inexact. -/
def roundAt (rm : Rnd) (neg : Bool) (m : Nat) (e q : Int) : Nat × Bool :=
  if q ≤ e then (m * 2 ^ (e - q).toNat, false)
  else
    let sh := (q - e).toNat
    let lo := m / 2 ^ sh
    let rem := m % 2 ^ sh
    let inexact := rem ≠ 0
    let cmp := compare (2 * rem) (2 ^ sh)
    (lo + (if roundUp rm neg (lo % 2 == 1) inexact cmp then 1 else 0), inexact)

/-- The exponent of the quantum of the extended set at m · 2^e (R72). -/
def quantum (f : Fmt) (m : Nat) (e : Int) : Int :=
  max ((Nat.log2 m : Int) + e - fmtFrac f) (1 - (fmtBias f : Int) - fmtFrac f)

/-- Is n · 2^q above the largest finite value? -/
def overflows (f : Fmt) (n : Nat) (q : Int) : Bool :=
  let (mm, me) := maxFinite f
  if q ≥ me then decide (n * 2 ^ (q - me).toNat > mm) else decide (n > mm * 2 ^ (me - q).toNat)

/-- Encode n · 2^q, a finite element of the format with q its quantum. -/
def packFinite (f : Fmt) (n : Nat) (q : Int) : Nat :=
  if n < 2 ^ fmtFrac f then n
  else
    let (n, q) := if n ≥ 2 ^ (fmtFrac f + 1) then (n / 2, q + 1) else (n, q)
    (q + fmtFrac f + fmtBias f).toNat * 2 ^ fmtFrac f + (n - 2 ^ fmtFrac f)

/-- The overflow result of R73, with SAT8 for E4M3. -/
def overflowBits (f : Fmt) (rm : Rnd) (sat8 neg : Bool) : Nat :=
  let toInf := match rm with
    | .rne | .sr => true
    | .rtz => false
    | .rup => !neg
    | .rdn => neg
  let s := if neg then signBit f else 0
  if !toInf then s + maxFiniteBits f
  else if f = .e4m3 then (if sat8 then s + 0x7E else canonNaN .e4m3)
  else s + infBits f

/-- A chosen element n · 2^q of the extended set, encoded, with the flags of R72. `tiny` says the exact value lay below the
smallest normal. -/
def finish (f : Fmt) (rm : Rnd) (sat8 neg tiny inexact : Bool) (n : Nat) (q : Int) : Nat × FlagSet :=
  if overflows f n q then (overflowBits f rm sat8 neg, fOF ||| fNX)
  else
    ((if neg then signBit f else 0) + packFinite f n q,
      flagIf inexact fNX ||| flagIf (inexact && tiny) fUF)

/-- round_mode to a floating-point format (R72, R73). -/
def roundF (f : Fmt) (rm : Rnd) (sat8 : Bool) (v : FV) : Nat × FlagSet :=
  match v with
  | .nan iv => (canonNaN f, flagIf iv fIV)
  | .inf neg => if f = .e4m3 then (canonNaN f, fIV) else ((if neg then signBit f else 0) + infBits f, 0#8)
  | .fin neg m e =>
    if m = 0 then (if neg then signBit f else 0, 0#8)
    else
      let q := quantum f m e
      let (n, inexact) := roundAt rm neg m e q
      let tiny := decide ((Nat.log2 m : Int) + e < 1 - (fmtBias f : Int))
      finish f rm sat8 neg tiny inexact n q

/-- Rounding to an integer of unbounded range: the integer, and whether it differs from the exact value. -/
def roundInt (rm : Rnd) (neg : Bool) (m : Nat) (e : Int) : Int × Bool :=
  let (n, inexact) := roundAt rm neg m e 0
  (if neg then -(n : Int) else n, inexact)

/-- round_mode to a two's-complement integer of `w` bits (R74), as its `w` bits. -/
def roundI (w : Nat) (rm : Rnd) (v : FV) : Nat × FlagSet :=
  let hi : Int := 2 ^ (w - 1) - 1
  let lo : Int := -(2 ^ (w - 1))
  match v with
  | .nan _ => (0, fIV)
  | .inf neg => (wrap w (if neg then lo else hi), fIV)
  | .fin neg m e =>
    let (x, inexact) := roundInt rm neg m e
    if x < lo then (wrap w lo, fIV) else if x > hi then (wrap w hi, fIV)
    else (wrap w x, flagIf inexact fNX)

/-- round_mode to any format that takes one (R72 to R74). -/
def roundMode (f : Fmt) (rm : Rnd) (sat8 : Bool) (v : FV) : Nat × FlagSet :=
  match f with
  | .i32 => roundI 32 rm v
  | .i8 | .g8 => roundI 8 rm v
  | .i4 | .g4 => roundI 4 rm v
  | _ => roundF f rm sat8 v

/-! ## Exact arithmetic (R70, R90) -/

def FV.isNaN : FV → Bool
  | .nan _ => true
  | _ => false
/-- Does reading this operand set invalid (R70)? -/
def FV.invalid : FV → Bool
  | .nan b => b
  | _ => false
def FV.isInf : FV → Bool
  | .inf _ => true
  | _ => false
def FV.isZero : FV → Bool
  | .fin _ m _ => m == 0
  | _ => false
def FV.neg : FV → FV
  | .nan b => .nan b
  | .inf n => .inf (!n)
  | .fin n m e => .fin (!n) m e
def FV.abs : FV → FV
  | .nan b => .nan b
  | .inf _ => .inf false
  | .fin _ m e => .fin false m e
def FV.sign : FV → Bool
  | .nan _ => false
  | .inf n => n
  | .fin n _ _ => n

/-- The integer value as an exact value. -/
def FV.ofInt (x : Int) (e : Int) : FV := .fin (decide (x < 0)) x.natAbs e

/-- Signed mantissa at exponent `q`, at most the value's own exponent. -/
def mantAt (neg : Bool) (m : Nat) (e q : Int) : Int :=
  let x : Int := (m : Int) * (2 : Int) ^ (e - q).toNat
  if neg then -x else x

/-- Exact product (R70). -/
def FV.mul (x y : FV) : FV :=
  match x, y with
  | .nan a, .nan b => .nan (a || b)
  | .nan a, _ => .nan a
  | _, .nan b => .nan b
  | .inf n, .inf k => .inf (n != k)
  | .inf n, .fin k m _ => if m = 0 then .nan true else .inf (n != k)
  | .fin n m _, .inf k => if m = 0 then .nan true else .inf (n != k)
  | .fin n m e, .fin k p g => .fin (n != k) (m * p) (e + g)

/-- Exact sum; an exact zero is +0, −0 under .rdn, and the common sign where the two operands have one (R134). -/
def FV.add (rm : Rnd) (x y : FV) : FV :=
  match x, y with
  | .nan a, .nan b => .nan (a || b)
  | .nan a, _ => .nan a
  | _, .nan b => .nan b
  | .inf n, .inf k => if n = k then .inf n else .nan true
  | .inf n, .fin _ _ _ => .inf n
  | .fin _ _ _, .inf k => .inf k
  | .fin n m e, .fin k p g =>
    let q := min e g
    let t := mantAt n m e q + mantAt k p g q
    if t = 0 then .fin (if n = k then n else rm == .rdn) 0 0 else FV.ofInt t q

def FV.sub (rm : Rnd) (x y : FV) : FV := FV.add rm x y.neg

/-- x · y + z; 0 × ∞ is invalid even beside a quiet NaN addend (R70). -/
def FV.fma (rm : Rnd) (x y z : FV) : FV :=
  match FV.mul x y with
  | .nan a => .nan (a || z.invalid)
  | p => FV.add rm p z

/-- The smallest exponent among the finite elements. -/
def minExp : List FV → Int → Int
  | [], d => d
  | .fin _ _ e :: r, d => minExp r (min e d)
  | _ :: r, d => minExp r d

/-- The signed mantissas at a common exponent, summed. -/
def sumAt (q : Int) : List FV → Int
  | [] => 0
  | .fin n m e :: r => mantAt n m e q + sumAt q r
  | _ :: r => sumAt q r

/-- exact_sum (R90). -/
def exactSum (l : List FV) : FV :=
  if l.any FV.isNaN then .nan (l.any FV.invalid)
  else
    let pos := l.any fun v => v.isInf && !v.sign
    let neg := l.any fun v => v.isInf && v.sign
    if pos && neg then .nan true else if pos then .inf false else if neg then .inf true
    else
      let q := minExp l 0
      let t := sumAt q l
      if t = 0 then .fin (!l.isEmpty && l.all FV.sign) 0 0 else FV.ofInt t q

/-- The integer square root by Newton's iteration from above; `fuel` bounds the steps. -/
def isqrtGo (x : Nat) : Nat → Nat → Nat
  | 0, r => r
  | fuel + 1, r =>
    let r' := (r + x / r) / 2
    if r' < r then isqrtGo x fuel r' else r

/-- ⌊√x⌋. -/
def isqrt (x : Nat) : Nat := if x = 0 then 0 else isqrtGo x 200 (2 ^ (Nat.log2 x / 2 + 1))

/-- A magnitude strictly between m · 2^e and (m + 1) · 2^e when `sticky`, else m · 2^e: exact enough for every rounding of
a value whose quantum lies above 2^(e + 1). -/
def withSticky (neg : Bool) (m : Nat) (e : Int) (sticky : Bool) : FV :=
  .fin neg (2 * m + (if sticky then 1 else 0)) (e - 1)

/-- Quotient, and divide-by-zero (R70). -/
def FV.div (x y : FV) : FV × FlagSet :=
  match x, y with
  | .nan a, .nan b => (.nan (a || b), 0#8)
  | .nan a, _ => (.nan a, 0#8)
  | _, .nan b => (.nan b, 0#8)
  | .inf _, .inf _ => (.nan true, 0#8)
  | .inf n, .fin k _ _ => (.inf (n != k), 0#8)
  | .fin n _ _, .inf k => (.fin (n != k) 0 0, 0#8)
  | .fin n m e, .fin k p g =>
    if p = 0 then (if m = 0 then (.nan true, 0#8) else (.inf (n != k), fDZ))
    else if m = 0 then (.fin (n != k) 0 0, 0#8)
    else
      let sh := 130 + Nat.log2 p - min (130 + Nat.log2 p) (Nat.log2 m)
      let q := (m * 2 ^ sh) / p
      (withSticky (n != k) q (e - g - sh) ((m * 2 ^ sh) % p ≠ 0), 0#8)

/-- Square root (R70); the root of −0 is −0. -/
def FV.sqrt (x : FV) : FV :=
  match x with
  | .nan a => .nan a
  | .inf n => if n then .nan true else .inf false
  | .fin n m e =>
    if m = 0 then .fin n 0 0 else if n then .nan true
    else
      let odd := e % 2 ≠ 0
      let m1 := if odd then 2 * m else m
      let e1 := if odd then e - 1 else e
      let big := m1 * 2 ^ 260
      let r := isqrt big
      withSticky false r ((e1 - 260) / 2) (r * r ≠ big)

/-- 1 / √x; ±0 gives ±∞ with divide-by-zero (R167). -/
def FV.rsqrt (x : FV) : FV × FlagSet :=
  match x with
  | .nan a => (.nan a, 0#8)
  | .inf n => if n then (.nan true, 0#8) else (.fin false 0 0, 0#8)
  | .fin n m e =>
    if m = 0 then (.inf n, fDZ) else if n then (.nan true, 0#8)
    else
      let odd := e % 2 ≠ 0
      let m1 := if odd then 2 * m else m
      let e1 := if odd then e - 1 else e
      let sh := 200 + Nat.log2 m1
      let r := isqrt (2 ^ (2 * sh) / m1)
      (withSticky false r (-(e1 / 2) - sh) (r * r * m1 ≠ 2 ^ (2 * sh)), 0#8)

/-- Order of two values that are not NaN; −0 equals +0. -/
def FV.cmp (x y : FV) : Ordering :=
  match x, y with
  | .inf n, .inf k => if n = k then .eq else if n then .lt else .gt
  | .inf n, _ => if n then .lt else .gt
  | _, .inf k => if k then .gt else .lt
  | .fin n m e, .fin k p g =>
    let q := min e g
    compare (mantAt n m e q) (mantAt k p g q)
  | _, _ => .eq

/-- Order with −0 < +0, as FMIN and FMAX take it (R134). -/
def FV.cmpZ (x y : FV) : Ordering :=
  if x.isZero && y.isZero then (if x.sign = y.sign then .eq else if x.sign then .lt else .gt) else FV.cmp x y

/-- The conditions of FCMP (R134): whether it holds, and whether invalid is set. -/
def fcmpHolds (c : FCond) (x y : FV) : Bool × FlagSet :=
  let nan := x.isNaN || y.isNaN
  let sig := x.invalid || y.invalid
  let o := FV.cmp x y
  match c with
  | .eq => (!nan && o == .eq, flagIf sig fIV)
  | .ne => (nan || o != .eq, flagIf sig fIV)
  | .lt => (!nan && o == .lt, flagIf nan fIV)
  | .le => (!nan && o != .gt, flagIf nan fIV)
  | .gt => (!nan && o == .gt, flagIf nan fIV)
  | .ge => (!nan && o != .lt, flagIf nan fIV)
  | .un => (nan, flagIf sig fIV)
  | .ord => (!nan, flagIf sig fIV)

/-- FMIN and FMAX on encodings (R134): the bits of the chosen operand, or the canonical NaN. -/
def fminmax (f : Fmt) (isMax : Bool) (x y : Nat) : Nat × FlagSet :=
  let a := unpack f x
  let b := unpack f y
  if a.isNaN || b.isNaN then (canonNaN f, flagIf (a.invalid || b.invalid) fIV)
  else
    let takeA := match FV.cmpZ a b with
      | .lt => !isMax
      | .gt => isMax
      | .eq => true
    (if takeA then x else y, 0#8)

/-! ## Stochastic rounding (R75) -/

/-- mix64 (R75). -/
def mix64 (z : Nat) : Nat :=
  let z := ((z ^^^ (z >>> 30)) * 0xBF58476D1CE4E5B9) % 2 ^ 64
  let z := ((z ^^^ (z >>> 27)) * 0x94D049BB133111EB) % 2 ^ 64
  z ^^^ (z >>> 31)

/-- sr_round: lane `i` of a row that uses `seed` and `ctr` (R75). -/
def srRound (f : Fmt) (sat8 : Bool) (seed ctr : Word) (i : Nat) (v : FV) : Nat × FlagSet :=
  match v with
  | .fin neg m e =>
    if m = 0 then roundF f .rne sat8 v else
    let q := quantum f m e
    let (lo, inexact) := roundAt .rtz neg m e q
    if !inexact then roundF f .rne sat8 v else
    -- `lo` and `lo + 1` quanta bracket the magnitude; a negative value's lower neighbour is the larger magnitude
    let sh := (q - e).toNat
    let rem := m % 2 ^ sh
    let num := if neg then 2 ^ sh - rem else rem
    let fr := (num * 2 ^ 24) / 2 ^ sh
    let r := mix64 ((seed.toNat ^^^ ((ctr.toNat % 2 ^ 56) * 256 + i % 256))) % 2 ^ 24
    let up := decide (r < fr)
    let n := if up != neg then lo + 1 else lo
    let tiny := decide ((Nat.log2 m : Int) + e < 1 - (fmtBias f : Int))
    finish f .rne sat8 neg tiny true n q
  | _ => roundF f .rne sat8 v

end Sys2Proof.Machine
end

