-- ==== Sys2Proof/Machine/FpFunc.lean ====
section
/-! DEFINITION. Machine/FpFunc.lean: the correctly rounded functions of the spec (R91, R92, R166 to R168, R180 to R185,
R330), in fixed point of 640 fraction bits. A value known only to lie strictly between two such fractions is passed on with
one more bit set, which settles every rounding to a format of the spec (DEDUCED, notes/assumptions/11.md). -/

namespace Sys2Proof.Machine

/-- Fraction bits of the fixed point. -/
def fxW : Nat := 640
/-- One in fixed point. -/
def fxOne : Nat := 2 ^ fxW

/-- Σ zᵏ/(2k + 1)-style series of atanh: the next odd power and the running sum; `fuel` terms. -/
def atanhGo (z2 : Nat) : Nat → Nat → Nat → Nat → Nat
  | 0, _, _, acc => acc
  | fuel + 1, k, pw, acc =>
    if pw = 0 then acc else atanhGo z2 fuel (k + 2) (pw * z2 / fxOne) (acc + pw / k)

/-- ln y for 1 ≤ y ≤ 2, in fixed point: 2 atanh((y − 1)/(y + 1)). -/
def lnFx (y : Nat) : Nat :=
  let z := (y - fxOne) * fxOne / (y + fxOne)
  2 * atanhGo (z * z / fxOne) 260 1 z 0

/-- ln 2 in fixed point. -/
def ln2Fx : Nat := lnFx (2 * fxOne)

/-- log2 y for 1 ≤ y ≤ 2, in fixed point. -/
def log2Fx (y : Nat) : Nat := lnFx y * fxOne / ln2Fx

/-- Σ xᵏ/k!: the next term and the running sum. -/
def expGo (x : Nat) : Nat → Nat → Nat → Nat → Nat
  | 0, _, _, acc => acc
  | fuel + 1, k, t, acc => if t = 0 then acc else expGo x fuel (k + 1) (t * x / fxOne / k) (acc + t)

/-- 2^f for 0 ≤ f < 1, in fixed point. -/
def exp2Fx (f : Nat) : Nat := expGo (f * ln2Fx / fxOne) 200 1 fxOne 0

/-- 2^x for x = ± m · 2^e, as a positive exact value (mantissa, exponent). Integers are exact. -/
def exp2All (neg : Bool) (m : Nat) (e : Int) : Nat × Int :=
  if m = 0 then (1, 0)
  else
    -- x in fixed point; a fraction below the last bit can only come from |x| < 2^-600
    let fx : Nat := if e + fxW ≥ 0 then m * 2 ^ (e + fxW).toNat else m / 2 ^ (-(e + fxW)).toNat
    let cut := decide (e + fxW < 0) && m % 2 ^ (-(e + fxW)).toNat != 0
    if fx % fxOne = 0 && !cut then (1, if neg then -((fx / fxOne : Nat) : Int) else ((fx / fxOne : Nat) : Int))
    else
      let k : Int := if neg then -((fx / fxOne : Nat) : Int) - 1 else ((fx / fxOne : Nat) : Int)
      let fr := if neg then fxOne - fx % fxOne else fx % fxOne
      if fr = fxOne then (2 * fxOne - 1, k - fxW)
      else (2 * exp2Fx fr + 1, k - fxW - 1)

/-- 2^x where it is rounded, or added to what is not 0: an exponent beyond 4000 in magnitude stands as ±4000, which no rounding of
the spec distinguishes. -/
def exp2Of (neg : Bool) (m : Nat) (e : Int) : Nat × Int :=
  if (Nat.log2 m : Int) + e > 11 then (1, if neg then -4000 else 4000) else exp2All neg m e

/-- 2^v as a positive exact value; ∞ gives ∞ and −∞ gives +0. -/
def exp2V (v : FV) : FV :=
  match v with
  | .nan b => .nan b
  | .inf n => if n then .fin false 0 0 else .inf false
  | .fin n m e => let (p, q) := exp2Of n m e; .fin false p q

/-- log2 of a positive m · 2^e, exact for a power of two. -/
def log2V (m : Nat) (e : Int) : FV :=
  let k := Nat.log2 m
  if m = 2 ^ k then FV.ofInt ((k : Int) + e) 0
  else
    let y := m * 2 ^ fxW / 2 ^ k
    let t : Int := ((k : Int) + e) * (fxOne : Int) + (log2Fx y : Nat)
    -- t is a floor: the true value lies strictly above it
    FV.ofInt (2 * t + 1) (-(fxW : Int) - 1)

/-- max(x, y) + log2(1 + 4^(−|x − y|))/2: the norm of two chunks (R185), for finite x and y. -/
def joinV (x y : FV) : FV :=
  let (hi, lo) := if FV.cmp x y == .lt then (y, x) else (x, y)
  match FV.sub .rne hi lo with
  | .fin _ m e =>
    if m = 0 then FV.add .rne hi (.fin false 1 (-1))
    else
      let (p, q) := exp2Of true (2 * m) e
      if (Nat.log2 p : Int) + q < -390 then FV.add .rne hi (.fin false 1 (-1000))
      else
        let t := if q + fxW ≥ 0 then p * 2 ^ (q + fxW).toNat else p / 2 ^ (-(q + fxW)).toNat
        let z := t * fxOne / (2 * fxOne + t)
        let l := 2 * atanhGo (z * z / fxOne) 260 1 z 0 * fxOne / ln2Fx
        FV.add .rne hi (.fin false (2 * l + 1) (-(fxW : Int) - 2))
  | v => v

/-- tanh of a finite nonzero value. -/
def tanhV (neg : Bool) (m : Nat) (e : Int) : FV :=
  let top := (Nat.log2 m : Int) + e
  if top < -60 then .fin neg (m * 2 ^ 64 - 1) (e - 64)
  else if top ≥ 6 then .fin neg (2 ^ 64 - 1) (-64)
  else
    -- x in fixed point is exact here; e^{2x} = 2^{2x / ln 2}
    let fx := if e + fxW ≥ 0 then m * 2 ^ (e + fxW).toNat else m / 2 ^ (-(e + fxW)).toNat
    let u := 2 * fx * fxOne / ln2Fx
    let w := exp2Fx (u % fxOne) * 2 ^ (u / fxOne)
    .fin neg (2 * ((w - fxOne) * fxOne / (w + fxOne)) + 1) (-(fxW : Int) - 1)

/-- atan(1/n) in fixed point, alternating series: `pw` is (1/n)^k. -/
def atanInvGo (n2 : Nat) : Nat → Nat → Nat → Bool → Int → Int
  | 0, _, _, _, acc => acc
  | fuel + 1, k, pw, neg, acc =>
    if pw = 0 then acc
    else atanInvGo n2 fuel (k + 2) (pw / n2) (!neg) (if neg then acc - (pw / k : Nat) else acc + (pw / k : Nat))

/-- π/2 in fixed point (Machin). -/
def halfPiFx : Nat :=
  (8 * atanInvGo 25 300 1 (fxOne / 5) false 0 - 2 * atanInvGo 57121 300 1 (fxOne / 239) false 0).toNat

/-- Alternating Taylor series from a first term: terms t, t·x²/((k+1)(k+2)), …. -/
def trigGo (x2 : Nat) : Nat → Nat → Nat → Bool → Int → Int
  | 0, _, _, _, acc => acc
  | fuel + 1, k, t, neg, acc =>
    if t = 0 then acc
    else trigGo x2 fuel (k + 2) (t * x2 / fxOne / ((k + 1) * (k + 2))) (!neg) (if neg then acc - (t : Int) else acc + (t : Int))

/-- sin and cos of a fixed-point angle of at most π/4. -/
def sinFx (x : Nat) : Nat := (trigGo (x * x / fxOne) 120 1 x false 0).toNat
def cosFx (x : Nat) : Nat := (trigGo (x * x / fxOne) 120 0 fxOne false 0).toNat

/-- The reduction constant of R168. -/
def twoOverPi : Nat := 0xA2F9836E4E441529FC2757D1F534DDC0DB629599

/-- The exact argument reduction of R168 and the function of the quadrant, for a finite nonzero m · 2^e below 2^20. -/
def sincosV (isCos neg : Bool) (m : Nat) (e : Int) : FV :=
  -- |y| = p · 2^q with q = e − 160
  let p := m * twoOverPi
  let q := e - 160
  let (k, _) := roundAt .rne false p q 0
  let f : Int := if q ≥ 0 then 0 else (p : Int) - (k : Int) * (2 : Int) ^ (-q).toNat
  -- signed: y = ±|y|, so k and f change sign with it
  let kk : Int := if neg then -(k : Int) else k
  let fneg := decide (f < 0) != neg
  let quad := ((kk + (if isCos then 1 else 0)) % 4).toNat
  let fa := f.natAbs
  -- |f| · π/2 in fixed point, with as many leading bits as it has
  let ang := if q + fxW ≥ 0 then fa * 2 ^ (q + fxW).toNat * halfPiFx / fxOne
    else fa * halfPiFx / fxOne / 2 ^ (-(q + fxW)).toNat
  let isSin := quad % 2 == 0
  if isSin && decide (Nat.log2 (ang + 1) + 90 < fxW) then
    -- |angle| < 2^-90: sin x lies just below x; keep the leading bits of the exact product
    .fin (fneg != (quad ≥ 2)) (2 * (fa * halfPiFx) - 1) (q - fxW - 1)
  else
    let r := if isSin then sinFx ang else cosFx ang
    let sgn := if isSin then fneg != decide (quad ≥ 2) else decide (quad ≥ 2)
    .fin sgn (2 * r + 1) (-(fxW : Int) - 1)

end Sys2Proof.Machine
end

