-- ==== Sys2Proof/Machine/Ops.lean ====
section
/-! DEFINITION. Machine/Ops.lean: the named operations over memory, register files, queues and flags that the meanings
share, taking a trap and returning from one. -/

namespace Sys2Proof.Machine

/-! ## Cores and their place in the module (R4) -/

def State.core (s : State) (c : Nat) : Core := vget s.cores c Core.reset
def State.setCore (s : State) (c : Nat) (x : Core) : State := { s with cores := vset s.cores c x }
def State.modCore (s : State) (c : Nat) (f : Core → Core) : State := s.setCore c (f (s.core c))
def State.modCtx (s : State) (c : Nat) (f : Ctx → Ctx) : State := s.modCore c fun x => { x with ctx := f x.ctx }
/-- The core a slot instruction runs on. -/
def State.me (s : State) : Core := s.core s.cur
def State.modMe (s : State) (f : Core → Core) : State := s.modCore s.cur f
def State.ctx (s : State) : Ctx := s.me.ctx
def State.modMyCtx (s : State) (f : Ctx → Ctx) : State := s.modCtx s.cur f
def State.part (s : State) (p : Nat) : Part := vget s.parts p Part.empty
def State.modPart (s : State) (p : Nat) (f : Part → Part) : State := { s with parts := vmod s.parts p Part.empty f }
def State.die (s : State) (d : Nat) : Die := vget s.dies d Die.reset
def State.modDie (s : State) (d : Nat) (f : Die → Die) : State := { s with dies := vmod s.dies d Die.reset f }
def State.cellar (s : State) (n : Nat) : Cellar := vget s.cellars n Cellar.reset
def State.modCellar (s : State) (n : Nat) (f : Cellar → Cellar) : State := { s with cellars := vmod s.cellars n Cellar.reset f }
def State.queue (s : State) (q : Nat) : HostQ := vget s.queues q HostQ.reset
def State.modQueue (s : State) (q : Nat) (f : HostQ → HostQ) : State := { s with queues := vmod s.queues q HostQ.reset f }

/-- The C-die of a module core. -/
def dieOf (c : Nat) : Nat := c / 64
/-- The module cluster of a module core (R4). -/
def clusterOf (c : Nat) : Nat := 8 * (c / 64) + 2 * ((c % 64 / 8) / 2) + (c % 8) / 4
/-- The copy engine that serves a core (R264). -/
def engineOf (c : Nat) : Nat := 2 * clusterOf c + (c % 64 / 8) % 2

/-- A field of a partition's descriptor: `n` bytes from byte `o` (R433). -/
def Part.d (p : Part) (o n : Nat) : Nat := bvField p.desc (8 * o) (8 * n)
def Part.hasCluster (p : Part) (k : Nat) : Bool := p.set && p.desc.getLsbD (64 + k)
def Part.hasGranule (p : Part) (die g : Nat) : Bool := p.set && p.desc.getLsbD (8 * (16 + 8 * die) + g)
def Part.hasChannel (p : Part) (c : Nat) : Bool := p.set && p.desc.getLsbD (8 * 48 + c)
def Part.hasQueue (p : Part) (q : Nat) : Bool := p.set && p.desc.getLsbD (8 * 12 + q)
def Part.hwbase (p : Part) : Nat := p.d 112 8
def Part.hwlimit (p : Part) : Nat := p.d 120 8
def Part.hkey (p : Part) : Nat := p.d 128 8
def Part.root (p : Part) : Nat := p.d 136 8
def Part.opbbase (p : Part) : Nat := p.d 144 8
def Part.opbcnt (p : Part) : Nat := p.d 152 4

/-- The partition that holds a cluster, or 8. -/
def clusterPart (s : State) (k : Nat) : Nat := ((upFrom 0 8).find? fun p => (s.part p).hasCluster k).getD 8
/-- The partition that holds a die-scratchpad granule, or 8. -/
def granulePart (s : State) (d g : Nat) : Nat := ((upFrom 0 8).find? fun p => (s.part p).hasGranule d g).getD 8
/-- The partition of a host queue 1 to 15, or 8. -/
def queuePart (s : State) (q : Nat) : Nat := ((upFrom 0 8).find? fun p => (s.part p).hasQueue q).getD 8

/-! ## Memory: spaces, the bank hash, discard bits (R217 to R226, R236) -/

/-- An address space. -/
inductive Space where
  | core (c : Nat) | cluster (k : Nat) | die (d : Nat) | pa | store (c : Nat)
deriving DecidableEq, Repr

/-- Bytes in a space (R217, R96, R236). -/
def Space.size : Space → Nat
  | .core _ => 0x200000 | .cluster _ => 0x1000000 | .die _ => 0x8000000 | .pa => 2 ^ 52 | .store _ => 0x40000

/-- The level byte of a memory write in a rerun's signature: the LVL code, 3 for HBM and host memory (R403, R217). -/
def Space.lvl : Space → Nat
  | .core _ => 0 | .cluster _ => 1 | .die _ => 2 | .pa => 3 | .store _ => 4

/-- Where each space begins among the model's global addresses (MODEL). -/
def Space.base : Space → Nat
  | .pa => 0 | .core c => 2 ^ 52 + c * 0x200000 | .cluster k => 2 ^ 53 + k * 0x1000000
  | .die d => 2 ^ 54 + d * 0x8000000 | .store c => 2 ^ 55 + c * 0x40000

def rotl64 (k n : Nat) : Nat := let m := n % 64; (k * 2 ^ m + k / 2 ^ (64 - m)) % 2 ^ 64

/-- The hash bit `j` of a row index (R219). -/
def hashBit (key w u j : Nat) : Bool := parity (u &&& (rotl64 key (13 * j)) % 2 ^ w) w != bitAt key (63 - j)

/-- The hash field of `b` bits. -/
def hashField (key w u : Nat) : Nat → Nat
  | 0 => 0
  | b + 1 => hashField key w u b + (if hashBit key w u b then 2 ^ b else 0)

/-- The line a line index selects under a key (R219); `b` and `w` are the level's bank and row widths. -/
def hashLine (key b w line : Nat) : Nat :=
  if key = 0 then line else
    let u := (line / 2 ^ b) % 2 ^ w
    u * 2 ^ b + ((line % 2 ^ b) ^^^ hashField key w u b)

/-- The key a space's offset is mapped with (R219, R220). -/
def keyOf (s : State) (sp : Space) (off : Nat) : Nat :=
  match sp with
  | .core c => if off ≥ 0x1F0000 then 0 else (s.core c).ctx.bhkey.toNat
  | .cluster k => (s.part (clusterPart s k)).hkey
  | .die d => (s.part (granulePart s d (off / 0x200000))).hkey
  | _ => 0

/-- The global address of a byte. -/
def physAddr (s : State) (sp : Space) (off : Nat) : Nat :=
  let key := keyOf s sp off
  let line := match sp with
    | .core _ => hashLine key 5 10 (off / 64)
    | .cluster _ => hashLine key 6 12 (off / 64)
    | .die _ => hashLine key 8 13 (off / 64)
    | _ => off / 64
  sp.base + line * 64 + off % 64

/-- The byte at an offset of a space: a discarded line reads as zero (R226). -/
def readByte (s : State) (sp : Space) (off : Nat) : Byte :=
  let a := physAddr s sp off
  if mget false (a / 64) s.discard then 0#8 else mget 0#8 a s.mem

/-- `n` bytes from an offset. -/
def readBytes (s : State) (sp : Space) (off : Nat) : Nat → List Byte
  | 0 => []
  | n + 1 => readByte s sp off :: readBytes s sp (off + 1) n

/-- A little-endian number of `n` bytes (R10). -/
def readNat (s : State) (sp : Space) (off n : Nat) : Nat := leNat (readBytes s sp off n)

/-- Store bytes at global addresses. -/
def putBytes (m : List Host.Cell) (a : Nat) : List Byte → List Host.Cell
  | [] => m
  | b :: r => putBytes (mput 0#8 a b m) (a + 1) r

/-- Zero a discarded line and clear its bit, before it is written (R226). -/
def undiscard (s : State) (line : Nat) : State :=
  if mget false line s.discard then
    { s with mem := putBytes s.mem (line * 64) (rep 0#8 64), discard := mput false line false s.discard }
  else s

/-- Writes to HBM, cluster and die scratchpads are noted in units of 64 KiB (R416). -/
def tracked (a : Nat) : Bool := decide (a < 2 ^ 39) || (decide (2 ^ 53 ≤ a) && decide (a < 2 ^ 55))

/-- Write one byte. -/
def writeByte (s : State) (sp : Space) (off : Nat) (b : Byte) : State :=
  let a := physAddr s sp off
  let s := undiscard s (a / 64)
  { s with mem := mput 0#8 a b s.mem, dirty := if tracked a then mput false (a / 65536) true s.dirty else s.dirty }

/-- Write bytes from an offset. -/
def writeBytes (s : State) (sp : Space) (off : Nat) : List Byte → State
  | [] => s
  | b :: r => writeBytes (writeByte s sp off b) sp (off + 1) r

/-- Write a number as `n` bytes (R10). -/
def writeNat (s : State) (sp : Space) (off n v : Nat) : State := writeBytes s sp off (leBytes v n)

/-! ## Register files -/

def Ctx.scalar (x : Ctx) (r : Nat) : Word :=
  match vget x.eph r none with
  | some e => if e.life = 0 then 0 else e.val
  | none => vget x.s r 0

/-- Is s`r` in ephemeral state and expired (R117)? -/
def Ctx.expired (x : Ctx) (r : Nat) : Bool :=
  match vget x.eph r none with
  | some e => e.life == 0
  | none => false

/-- A predicate; p0 reads true (R120). -/
def Ctx.pred (x : Ctx) (r : Nat) : Bool := r == 0 || x.p.getLsbD r

def Ctx.bypass (x : Ctx) (u : Nat) : Word := vget x.byp u 0
def Ctx.handle (x : Ctx) (r : Nat) : HandleBits := vget x.h r 0
def Ctx.tile (x : Ctx) (t : Nat) : Tile := vget x.tiles t Tile.void
def Ctx.modTile (x : Ctx) (t : Nat) (f : Tile → Tile) : Ctx := { x with tiles := vmod x.tiles t Tile.void f }
def Ctx.row (x : Ctx) (t r : Nat) : Row := vget (x.tile t).rows r 0
def Ctx.setRow (x : Ctx) (t r : Nat) (v : Row) : Ctx := x.modTile t fun y => { y with rows := vset y.rows r v }
def Ctx.bobbin (x : Ctx) (b : Nat) : Bobbin := vget x.bob b Bobbin.unconfigured
def Ctx.modBobbin (x : Ctx) (b : Nat) (f : Bobbin → Bobbin) : Ctx := { x with bob := vmod x.bob b Bobbin.unconfigured f }
def Ctx.lane (x : Ctx) (hi : Bool) : Lane := if hi then x.hi else x.lo
def Ctx.modLane (x : Ctx) (hi : Bool) (f : Lane → Lane) : Ctx := if hi then { x with hi := f x.hi } else { x with lo := f x.lo }
def Ctx.flagVal (x : Ctx) (f : Nat) : Nat := (vget x.k f 0).toNat

/-- Loop index port l`j` and live count lc (R94). -/
def Seq.loopIndex (q : Seq) (j : Nat) : Word := if j < q.depth then (vget q.loops j LoopEntry.zero).index.setWidth 64 else 0
def Seq.liveCount (q : Seq) : Word := if q.depth = 0 then 0 else (vget q.loops 0 LoopEntry.zero).limit.setWidth 64

/-- The 64-bit value a source port gives (R35, R113, R118). -/
def Ctx.val (x : Ctx) : Port → Word
  | .s r => x.scalar r.val
  | .byp u => x.bypass u.val
  | .p r => if x.pred r.val then 1 else 0
  | .l j => x.seq.loopIndex j.val
  | .lc => x.seq.liveCount
  | .nrm j => (vget x.norms j.val 0).setWidth 64
  | _ => 0

/-- Does a slot with this guard act (R30)? -/
def Ctx.guard (x : Ctx) (g : Guard) : Bool := x.pred g.p.val != g.neg

def hOf : Port → Nat
  | .h r => r.val
  | _ => 0
def bOf : Port → Nat
  | .b r => r.val
  | _ => 0
def tOf : Port → Nat
  | .tile r => r.val
  | _ => 0
def dOf : Port → Nat
  | .d r => r.val
  | .nrm r => r.val
  | _ => 0
/-- The flag a destination names, none for z. -/
def kOf : Port → Option Nat
  | .k r => some r.val
  | _ => none

/-! ## Handles (R123, R124) -/

def Handle.base (h : HandleBits) : Nat := bvField h 0 64
def Handle.fmtCode (h : HandleBits) : Nat := bvField h 64 4
def Handle.lvl (h : HandleBits) : Nat := bvField h 68 2
def Handle.rank (h : HandleBits) : Nat := bvField h 70 2
def Handle.grp (h : HandleBits) : Nat := bvField h 72 2
def Handle.nib (h : HandleBits) : Nat := bvField h 81 1
/-- Sizes of dimensions 0 to 3. -/
def Handle.size (h : HandleBits) (j : Nat) : Nat :=
  match j with
  | 0 => bvField h 96 24 | 1 => bvField h 150 16 | 2 => bvField h 195 16 | _ => bvField h 240 16
/-- Strides of dimensions 0 to 3, in elements. -/
def Handle.stride (h : HandleBits) (j : Nat) : Int :=
  match j with
  | 0 => 1 | 1 => sextNat 29 (bvField h 121 29) | 2 => sextNat 29 (bvField h 166 29) | _ => sextNat 29 (bvField h 211 29)
def Handle.fmt (h : HandleBits) : Option Fmt := Fmt.ofCode (h.extractLsb' 64 4)
/-- Element width in bits; a reserved format has none. -/
def Handle.width (h : HandleBits) : Nat := ((Handle.fmt h).map fmtWidth).getD 0
/-- Sizes and strides above RANK are zero (R123). -/
def Handle.wellRanked (h : HandleBits) : Bool :=
  (upFrom 1 3).all fun j => decide (j ≤ Handle.rank h) || (Handle.size h j == 0 && Handle.stride h j == 0)
/-- No reserved bit of the handle is set (R13, R123). -/
def Handle.clean (h : HandleBits) : Bool := bvField h 82 14 == 0 && bvField h 120 1 == 0
/-- A clean handle that declares nothing above RANK (R13, R123). -/
def Handle.wellFormed (h : HandleBits) : Bool := Handle.wellRanked h && Handle.clean h
/-- The size a consumer uses: 1 above RANK (R123). -/
def Handle.used (h : HandleBits) (j : Nat) : Nat := if j ≤ Handle.rank h then Handle.size h j else 1

/-- The position of an element as a count of half-bytes from address 0 (R124), modulo 2^65. -/
def Handle.nibbleOf (h : HandleBits) (i0 i1 i2 i3 : Nat) : Nat :=
  let e : Int := i0 + i1 * Handle.stride h 1 + i2 * Handle.stride h 2 + i3 * Handle.stride h 3
  let q : Int := if Handle.width h ≥ 8 then 2 * (Handle.base h + e * (Handle.width h / 8 : Nat))
    else 2 * Handle.base h + Handle.nib h + e
  (q % (2 ^ 65 : Nat)).toNat

/-- HADV's new BASE and NIB (R135): `b` elements along dimension `dim`. -/
def Handle.advance (h : HandleBits) (b : Int) (dim : Nat) : HandleBits :=
  let stride := if dim = 0 then 1 else if dim ≤ Handle.rank h then Handle.stride h dim else 0
  let e := b * stride
  if Handle.width h ≥ 8 then bvSet h 0 64 (wrap 64 (Handle.base h + e * (Handle.width h / 8 : Nat)))
  else
    let q : Int := 2 * Handle.base h + Handle.nib h + e
    bvSet (bvSet h 0 64 (wrap 64 (q / 2))) 81 1 (q % 2).toNat

/-! ## Bobbins (R187 to R194) -/

def Bobbin.fmt (b : Bobbin) : Option Fmt := Fmt.ofCode (b.cfg.extractLsb' 19 4)
def Bobbin.tsz (b : Bobbin) : Nat := bvField b.cfg 34 3
def Bobbin.lay (b : Bobbin) : Bool := b.cfg.getLsbD 33
def Bobbin.rowsl (b : Bobbin) : Nat := bvField b.cfg 25 4
def Bobbin.colsl (b : Bobbin) : Nat := bvField b.cfg 29 4
def Bobbin.grp (b : Bobbin) : Nat := bvField b.cfg 23 2
def Bobbin.sst (b : Bobbin) : Nat := bvField b.cfg 48 16
def Bobbin.sb (b : Bobbin) : Bool := b.cfg.getLsbD 37
def Bobbin.sch (b : Bobbin) : Nat := bvField b.cfg 38 5
def Bobbin.zph (b : Bobbin) : Nat := bvField b.cfg 43 5
def Bobbin.rows (b : Bobbin) : Nat := 2 ^ b.rowsl
def Bobbin.cols (b : Bobbin) : Nat := 2 ^ b.colsl
def Bobbin.cap (b : Bobbin) : Nat := bvField b.loc 56 8 + 1
def Bobbin.slotBytes (b : Bobbin) : Nat := 256 * 2 ^ b.tsz
def Bobbin.base (b : Bobbin) : Nat := bvField b.loc 8 13 * 256
def Bobbin.slotAddr (b : Bobbin) (i : Nat) : Nat := b.base + i * b.slotBytes
def Bobbin.sideAddr (b : Bobbin) (i : Nat) : Nat := b.base + b.cap * b.slotBytes + 8 * i
def Bobbin.qp (b : Bobbin) : Nat := (b.claims.filter fun c => !c.keep).length
def Bobbin.head (b : Bobbin) : Nat := (b.tail + b.cnt) % b.cap
def Bobbin.slot (b : Bobbin) (i : Nat) : SlotState := mget .free i b.slots
def Bobbin.setSlot (b : Bobbin) (i : Nat) (x : SlotState) : Bobbin := { b with slots := mput .free i x b.slots }

/-- Landed slots counted from TAIL (R190). -/
def Bobbin.rdyFrom (b : Bobbin) (i : Nat) : Nat → Nat
  | 0 => 0
  | n + 1 => if b.slot (i % b.cap) = .landed then 1 + Bobbin.rdyFrom b (i + 1) n else 0
def Bobbin.rdy (b : Bobbin) : Nat := b.rdyFrom b.tail b.cnt
/-- Is some reserved slot not landed or failed yet (R195)? -/
def Bobbin.pending (b : Bobbin) : Bool := b.slots.any fun e => e.2 == .reserved

/-- PTR (R190). -/
def Bobbin.ptr (b : Bobbin) : Word :=
  BitVec.ofNat 64 ((if b.v then 2 ^ 63 else 0) + b.qp * 2 ^ 34 + b.rdy * 2 ^ 25 + b.cnt * 2 ^ 16 + b.tail * 2 ^ 8 +
    (if b.v then b.head else 0))

/-- Reserve the slot at HEAD (R193). -/
def Bobbin.reserve (b : Bobbin) (x : SlotState) : Bobbin := { (b.setSlot b.head x) with cnt := b.cnt + 1 }
/-- Free the slot at TAIL. -/
def Bobbin.popTail (b : Bobbin) : Bobbin :=
  { (b.setSlot b.tail .free) with tail := (b.tail + 1) % b.cap, cnt := b.cnt - 1 }
def Bobbin.popN (b : Bobbin) : Nat → Bobbin
  | 0 => b
  | n + 1 => Bobbin.popN b.popTail n
def Bobbin.pushN (b : Bobbin) : Nat → Bobbin
  | 0 => b
  | n + 1 => Bobbin.pushN (b.reserve .landed) n

/-- Claim the slot at (TAIL + QP) mod CAP (R194). -/
def Bobbin.nextClaim (b : Bobbin) : Nat := (b.tail + b.qp) % b.cap
def Bobbin.claim (b : Bobbin) (op : Nat) (keep : Bool) : Bobbin :=
  { b with claims := b.claims ++ [⟨op, b.nextClaim, keep, false⟩] }
def Bobbin.claimN (b : Bobbin) (op : Nat) : Nat → Bobbin
  | 0 => b
  | n + 1 => Bobbin.claimN (b.claim op false) op n

/-- Pop every finished claim that no earlier claim holds back (R194). -/
def Bobbin.settle (b : Bobbin) : Nat → Bobbin
  | 0 => b
  | fuel + 1 =>
    match b.claims with
    | c :: r => if c.done && !c.keep then Bobbin.settle { b.popTail with claims := r } fuel else b
    | [] => b

/-- Mark the first unfinished claim of an operation done, drop its keep claims, and pop what can be popped. -/
def markFirst (op : Nat) : List Claim → List Claim
  | [] => []
  | c :: r => if c.op = op && !c.keep && !c.done then { c with done := true } :: r else c :: markFirst op r
def Bobbin.release (b : Bobbin) (op : Nat) : Bobbin := ({ b with claims := markFirst op b.claims }).settle b.claims.length
def Bobbin.unkeep (b : Bobbin) (op : Nat) : Bobbin :=
  ({ b with claims := b.claims.filter fun c => !(c.keep && c.op == op) }).settle b.claims.length
/-- Drop an operation's claims without popping (R390). -/
def Bobbin.forget (b : Bobbin) (op : Nat) : Bobbin :=
  ({ b with claims := b.claims.filter fun c => c.op != op }).settle b.claims.length
/-- The slot of an operation's first unfinished claim. -/
def Bobbin.claimed (b : Bobbin) (op : Nat) : Option Nat := (b.claims.find? fun c => c.op == op && !c.done).map (·.slot)

/-- Position of element (r, c) in a slot, in half-bytes (R191). -/
def Bobbin.nibbleOf (b : Bobbin) (r c : Nat) : Nat :=
  let e := if b.lay then c * b.rows + r else r * b.cols + c
  let w := ((Bobbin.fmt b).map fmtWidth).getD 8
  if w ≥ 8 then 2 * e * (w / 8) else e

/-! ## Tags -/

def Tag.code : Tag → Nat
  | .void => 0 | .fp32 => 1 | .bf16 => 2 | .fp64 => 3 | .int32 => 4
def Tag.decode (n : Nat) : Tag :=
  match n with
  | 1 => .fp32 | 2 => .bf16 | 3 => .fp64 | 4 => .int32 | _ => .void
/-- Lanes per row and lane width (R140). -/
def Tag.lanes : Tag → Nat
  | .bf16 => 128 | .fp64 => 32 | _ => 64
def Tag.width : Tag → Nat
  | .bf16 => 16 | .fp64 => 64 | _ => 32
/-- The format of a floating-point tag's lanes. -/
def Tag.fmt : Tag → Fmt
  | .bf16 => .bf16 | .fp64 => .f64 | .int32 => .i32 | _ => .f32
/-- The tag whose lanes have a format (R153). -/
def Tag.ofFmt : Fmt → Tag
  | .f32 => .fp32 | .f64 => .fp64 | .bf16 => .bf16 | _ => .int32

/-- A tile void or retagged: zero bits, every row resident (R142, R201). -/
def Tile.retag (t : Tag) : Tile := { Tile.void with tag := t }

/-- Does a flight or row operation write tile `t`? Its rows are dropped when the tile is voided or retagged (R142). -/
def Flight.dropTile (t : Nat) (f : Flight) : Flight :=
  { f with wrs := f.wrs.map fun w => match w with
      | .row t' r v => if t' = t then .void t r v else w
      | .rowPart t' r _ _ v => if t' = t then .void t r v else w
      | w => w }

/-- The tile a row instruction writes. -/
def rowDest : Instr → Port
  | .vadd _ d _ _ _ _ _ | .vsub _ d _ _ _ _ _ | .vmul _ d _ _ _ _ _ | .vfma _ d _ _ _ _ _ _ => d
  | .vmin _ d _ _ _ _ | .vmax _ d _ _ _ _ | .vabs _ d _ _ _ | .vneg _ d _ _ _ | .vcmp _ d _ _ _ _ _ => d
  | .vsel _ d _ _ _ _ _ | .vand _ d _ _ _ _ | .vor _ d _ _ _ _ | .vxor _ d _ _ _ _ | .vshl _ d _ _ _ _ => d
  | .vshr _ d _ _ _ _ _ | .vcvt _ d _ _ _ _ _ _ | .vqnt _ d _ _ _ _ _ _ | .vdq _ d _ _ _ _ _ _ _ => d
  | .vaddp8 _ d _ _ _ _ _ | .vmulp8 _ d _ _ _ _ _ | .vbcast _ d _ _ _ _ | .vrow _ d _ _ _ _ => d
  | .vrowRel _ d | .vperm _ d _ _ _ _ | .vmred _ d _ _ _ _ _ _ | .vmscan _ d _ _ _ _ _ _ => d
  | .vsum _ _ d _ _ _ _ | .vmaxr _ _ d _ _ _ _ | .vband _ d _ _ _ _ | .vpopc _ d _ _ _ | .vpfx _ d _ _ _ _ => d
  | .visect _ _ d _ _ _ _ _ | .vlsem _ d _ _ _ _ => d
  | .exp2 _ d _ _ _ | .log2 _ d _ _ _ | .rcp _ d _ _ _ _ | .rsqrt _ d _ _ _ _ | .sqrt _ d _ _ _ _ => d
  | .sin _ d _ _ _ | .cos _ d _ _ _ | .tanh _ d _ _ _ => d
  | .dto _ d _ _ _ _ => d
  | _ => .z

def RowOp.dropTile (t : Nat) (o : RowOp) : RowOp :=
  match rowDest o.ins with
  | .tile r => if r.val = t then { o with dead := true } else o
  | _ => o
def RowUnit.dropTile (t : Nat) (u : RowUnit) : RowUnit := ⟨u.cur.map (RowOp.dropTile t), u.queue.map (RowOp.dropTile t)⟩

/-- Give a tile a tag with all its rows zero; rows of earlier instructions still to land are discarded (R142). -/
def Ctx.zeroTile (x : Ctx) (t : Nat) (tag : Tag) : Ctx :=
  { (x.modTile t fun _ => Tile.retag tag) with
    flights := x.flights.map (Flight.dropTile t), va := x.va.dropTile t, sf := x.sf.dropTile t }

/-- The tiles an mx operation writes (R199). -/
def mxWrites : Instr → List Nat
  | .mzero _ d _ | .mload _ d _ _ | .mma _ d _ _ _ _ _ _ _ | .mmat _ d _ _ _ _ _ _ _ | .mstep _ d _ _ _ _ => [tOf d]
  | .mfmt _ d _ _ _ _ => [tOf d]
  | .munst _ _ a _ _ => [tOf a]
  | _ => []

/-- An mx operation that writes tile `t` discards its rows when they land (R142). -/
def Op.dropTile (t : Nat) (o : Op) : Op := if (mxWrites o.ins).contains t then { o with dead := true } else o

/-- What a frozen context, mx and the stash traffic have still to land in a tile made void is discarded too (R142). -/
def Core.zeroFrozen (x : Core) (t : Nat) : Core :=
  { x with frozen := x.frozen.map (Flight.dropTile t), frozenVa := x.frozenVa.dropTile t, frozenSf := x.frozenSf.dropTile t
           mxq := x.mxq.map (Op.dropTile t), mx := x.mx.map fun r => { r with op := r.op.dropTile t }, stash := x.stash.map (Op.dropTile t) }

/-- Give a void tile a tag; a void tile holds zero bits already. -/
def Ctx.tagTile (x : Ctx) (t : Nat) (tag : Tag) : Ctx := x.modTile t fun y => { y with tag := tag }

/-! ## Translation (R236 to R241) -/

/-- Does a physical address lie in a channel the partition owns or in its host window (R237)? -/
def ownedPa (p : Part) (pa : Nat) : Bool :=
  if bitAt pa 51 then decide (p.hwbase ≤ pa % 2 ^ 51) && decide (pa % 2 ^ 51 < p.hwlimit)
  else decide (pa < 2 ^ 39) && p.hasChannel (pa / 2 ^ 30)

/-- The result of a walk: a physical address, whether writes are allowed and the size of the page, or a cause. -/
inductive Walk where
  | ok (pa : Nat) (w : Bool) (size : Nat)
  | bad (cause : Nat)
deriving DecidableEq, Repr

/-- The walk from a table at level `lvl` (R241). -/
def walkFrom (s : State) (p : Part) (va : Nat) (wr : Bool) : Nat → Nat → Walk
  | lvl, t =>
    if !ownedPa p t then .bad 0x0A3 else
    let idx := if lvl = 0 then field va 16 5 else field va (12 + 9 * lvl) 9
    let e := readNat s .pa (t + 8 * idx) 8
    if !bitAt e 0 then .bad 0x0A0
    else if field e 52 12 ≠ 0 ∨ field e 3 5 ≠ 0 then .bad 0x0A4
    else
      let leaf := bitAt e 1
      let addr := field e 8 44 * 256
      if (lvl = 3 ∧ leaf) ∨ (lvl = 0 ∧ ¬ leaf) then .bad 0x0A4
      else if leaf then
        let size := 2 ^ (16 + 9 * lvl - (if lvl = 0 then 0 else 4))
        if addr % size ≠ 0 then .bad 0x0A4
        else
          let pa := addr + va % size
          if !ownedPa p pa then .bad 0x0A3
          else if wr && !bitAt e 2 then .bad 0x0A1
          else .ok pa (bitAt e 2) size
      else
        match lvl with
        | 0 => .bad 0x0A4
        | l + 1 => if addr % (if l = 0 then 256 else 4096) ≠ 0 then .bad 0x0A4 else walkFrom s p va wr l addr

/-- A virtual address is canonical (R238). -/
def canonical (va : Nat) : Bool := field va 48 16 == (if bitAt va 47 then 0xFFFF else 0)

/-- The walk for a virtual address of a partition (R238, R241). -/
def translate (s : State) (part va : Nat) (wr : Bool) : Walk :=
  let p := s.part part
  if canonical va then walkFrom s p va wr 3 p.root else .bad 0x0A2

/-! ### Range-translation caches (R242, R244, R264) -/

def State.ranges (s : State) (e : Nat) : List XRange := vget s.xlat e []

/-- Does the range hold an address of its partition? -/
def XRange.holds (r : XRange) (part va : Nat) : Bool := r.part == part && decide (r.vb ≤ va) && decide (va < r.vb + r.len)

/-- Translation by the copy engine that serves a core: through its cache, or by a walk where the cache holds no range of the
address. A physical address outside the partition's channels and host window faults either way (R237, R242). -/
def xlate (s : State) (core part va : Nat) (wr : Bool) : Walk :=
  if !canonical va then .bad 0x0A2 else
  match (s.ranges (engineOf core)).find? fun r => r.holds part va with
  | some r =>
    let pa := r.pb + (va - r.vb)
    if !ownedPa (s.part part) pa then .bad 0x0A3
    else if wr && !r.w then .bad 0x0A1
    else .ok pa r.w r.len
  | none => translate s part va wr

/-- A range goes on over the leaves that follow it, while virtual and physical addresses stay contiguous, W stays the same and
the leaves lie under the same L2 table; `fuel` bounds their number (R242). -/
def extendRange (s : State) (p : Part) (r : XRange) : Nat → XRange
  | 0 => r
  | fuel + 1 =>
    let va := r.vb + r.len
    if va / 2 ^ 39 ≠ r.vb / 2 ^ 39 then r else
      match walkFrom s p va false 3 p.root with
      | .ok pa w size => if pa = r.pb + r.len ∧ w = r.w then extendRange s p { r with len := r.len + size } fuel else r
      | .bad _ => r

/-- An access of a core's engine to an address that translates makes its range the most recently used, after a walk on a miss; the
least recently used of more than 512 is replaced (R242). -/
def State.useRange (s : State) (core part va : Nat) : State :=
  let e := engineOf core
  match (s.ranges e).find? fun r => r.holds part va with
  | some r => if (s.ranges e).head? = some r then s else { s with xlat := vmod s.xlat e [] fun l => r :: l.erase r }
  | none =>
    match translate s part va false with
    | .ok pa w size =>
      let r := extendRange s (s.part part) ⟨part, va - va % size, size, pa - va % size, w⟩ (2 ^ 23)
      { s with xlat := vmod s.xlat e [] fun l => (r :: l).take 512 }
    | .bad _ => s

/-- Every cached range of a partition that overlaps `n` bytes from `va` is dropped (R244). -/
def State.dropRanges (s : State) (part va n : Nat) : State :=
  { s with xlat := s.xlat.map fun l => l.filter fun r => !(r.part == part && decide (r.vb < va + n) && decide (va < r.vb + r.len)) }

/-! ### The saved words of a context that is away (R244, R398) -/

/-- The physical address of a saved word of a context of core `c`: it is translated at each access, so that it follows the page tables as
they stand (R244). -/
def awayPa (s : State) (c va : Nat) : Option Nat :=
  match xlate s c (s.core c).part va true with
  | .ok pa .. => some pa
  | .bad _ => none

/-- Read saved bytes; what no longer translates reads 0: DESIGN CHOICE (notes/assumptions/102.md). -/
def awayGet (s : State) (c va n : Nat) : Nat := ((awayPa s c va).map fun pa => readNat s .pa pa n).getD 0

/-- Write saved bytes; what no longer translates is not written: DESIGN CHOICE (notes/assumptions/102.md). -/
def awayPut (s : State) (c va : Nat) (l : List Byte) : State :=
  match awayPa s c va with
  | some pa => writeBytes (s.useRange c (s.core c).part va) .pa pa l
  | none => s

/-! ## Flags, causes and increments -/

/-- OR flags into AFL (R79). -/
def Ctx.raise (x : Ctx) (f : FlagSet) : Ctx := { x with afl := x.afl ||| f.setWidth 64 }

/-- The lowest raised and enabled flag's index, 0 to 6 (R80). -/
def enabledFlag (afte : Word) (f : FlagSet) : Option Nat :=
  (upFrom 0 7).find? fun i => f.getLsbD i && afte.getLsbD i

def slotMask (i : Nat) : BitVec 8 := 1#8 <<< i

/-- A cause due at a report point (R382, R384). -/
def Held.report (cause : Nat) (mask : BitVec 8) (addr : Word) : Held := ⟨cause, mask, 0, addr, 0, true, false⟩

def State.hold (s : State) (c : Nat) (h : Held) : State := s.modCore c fun x => { x with held := x.held ++ [h] }

/-- The raised and enabled flags' indices, lowest first (R80). -/
def enabledFlags (afte : Word) (f : FlagSet) : List Nat := (upFrom 0 7).filter fun i => f.getLsbD i && afte.getLsbD i

/-- A cause joins those of its code, their masks together (R80). -/
def joinHeld (b : Held) : List Held → List Held
  | [] => [b]
  | h :: r => if h.cause = b.cause then { h with mask := h.mask ||| b.mask } :: r else h :: joinHeld b r

/-- The lowest of some causes. -/
def lowestHeld : List Held → Option Held
  | [] => none
  | h :: r => match lowestHeld r with
    | none => some h
    | some g => if g.cause < h.cause then some g else some h

/-- A cause falls at the end of this cycle (R80, R382). -/
def Core.addDue (x : Core) (b : Held) : Core := { x with due := joinHeld b x.due }

/-- Raise a landing result's flags: AFL, and the arithmetic traps at the end of this cycle (R79, R80). -/
def Core.raiseFlags (x : Core) (f : FlagSet) (slot : Nat) : Core :=
  (enabledFlags x.ctx.afte f).foldl (fun x i => x.addDue ⟨0x060 + i, slotMask slot, 0, 0, 0, false, false⟩) { x with ctx := x.ctx.raise f }

/-- What a result writes when it lands at once: a register, a predicate, a bypass register. -/
def Ctx.takeWr (x : Ctx) : Wr → Ctx
  | .scalar r v => { x with s := vset x.s r v, eph := vset x.eph r none }
  | .eph r v => { x with eph := vset x.eph r (some ⟨v, 48⟩) }
  | .byp u v => { x with byp := vset x.byp u v }
  | .pred r v => { x with p := (bvSet x.p r 1 (if v then 1 else 0)) ||| 1#8 }
  | _ => x

/-- Change a context for operation `id` of its core. A rollback does not repeat an operation issued before the open checkpoint's
CKPT, so what it brings about is kept in the shadow store too (R401, R403). -/
def Core.modFor (x : Core) (id : Nat) (f : Ctx → Ctx) : Core :=
  { x with ctx := f x.ctx, ckpt := x.ckpt.map fun k => if id < k.first then { k with shadow := f k.shadow } else k }
def State.modCtxFor (s : State) (c id : Nat) (f : Ctx → Ctx) : State := s.modCore c fun x => x.modFor id f

/-- Serial order of epochs (R254). -/
def serialLe (a b : BitVec 32) : Bool := decide ((b - a).toNat < 2 ^ 31)

/-- Die `i` closes its epoch: its own component rises by 1 and every other die is sent a marker (R254). -/
def closeEpoch (s : State) (i : Nat) : State :=
  let vc := (s.die i).vc
  let e := vget vc i 0
  let m : Marker := ⟨i, e, vc⟩
  let s := (upFrom 0 12).foldl (fun s j => if j = i then s else s.modDie j fun d => { d with markers := d.markers ++ [m] }) s
  s.modDie i fun d => { d with vc := vset d.vc i (e + 1) }

/-- Send an increment (R269). One bound for another die closes the sender's epoch (R254). -/
def sendIncr (s : State) (fromDie core : Nat) (ctag : BitVec 16) (flag amt : Nat) (src srcOp : Nat) (post : Bool) (counts : Bool := false)
    (free : Bool := false) : State :=
  let s := if dieOf core = fromDie then s else closeEpoch s fromDie
  let clk := (s.die fromDie).vc
  { s with net := s.net ++ [⟨core, ctag, flag, amt, fromDie, clk, src, srcOp, post, counts, free⟩] }

/-- Increment a flag, saturating (R268). -/
def Ctx.bump (x : Ctx) (f amt : Nat) : Ctx :=
  let v := x.flagVal f + amt
  if v > 1048575 then { x with k := vset x.k f 1048575#20, ksat := x.ksat ||| (1#32 <<< f) }
  else { x with k := vset x.k f (BitVec.ofNat 20 v) }

/-- The away entry of a tag, if the context is away from its core (R398). -/
def Core.awayOf (x : Core) (ctag : BitVec 16) : Option Away := x.away.find? fun a => a.ctag == ctag

/-- Flags delivered into an away entry, by an operation of the slots of a mask. -/
def Away.deliver (a : Away) (f : FlagSet) (slots : BitVec 8) : Away :=
  { a with mask := a.mask ||| f
           slots := (upFrom 0 8).foldl (fun m i => if f.getLsbD i then mput 0 i (mget 0 i m ||| slots) m else m) a.slots }

/-- Raise the flags of engine operation `id` into the context whose tag it carries; `slots` names the operation's slot (R79, R80,
R398). -/
def deliverFlags (s : State) (c : Nat) (ctag : BitVec 16) (id : Nat) (f : FlagSet) (slots : BitVec 8) : State :=
  if f = 0#8 then s else
  let x := s.core c
  match x.awayOf ctag with
  | some a =>
    let old := awayGet s c a.addr 8
    let s := awayPut s c a.addr (leBytes (old ||| f.toNat) 8)
    s.modCore c fun x => { x with away := x.away.map fun e => if e.ctag == ctag then e.deliver f slots else e }
  | none =>
    if x.ctag = ctag then
      s.modCore c fun x =>
        { x.modFor id fun y => y.raise f with
                 held := (enabledFlags x.ctx.afte f).foldl (fun l i => joinHeld (Held.report (0x060 + i) slots 0) l) x.held }
    else s

/-- The save engine is saving the context: mx and tm finish their work meanwhile (R215, R309, R394). -/
def Core.saving (x : Core) : Bool := x.ctxBusy == some 1 || x.ctxBusy == some 5

/-- Does this operation count as an outstanding copy (R267)? -/
def countsOutstanding : Instr → Bool
  | .mzero .. | .mload .. | .mma .. | .mmat .. | .mmask .. | .mdrain .. | .mstep .. | .mfmt .. | .mqry .. | .msync .. => false
  | .rcmp .. | .rrst .. | .rpred .. | .rset .. | .rsetCfg .. | .rcnt .. | .fence .. => false
  | _ => true

/-- A context of a core gives back one outstanding copy (R267). While it is away the count of its entry falls too, and at 0 the
entry is freed; a mask it has collected stays owed to it (R398). -/
def giveBack (s : State) (c : Nat) (ctag : BitVec 16) : State :=
  s.modCore c fun x =>
    let away := x.away.map fun e => if e.ctag == ctag then { e with count := e.count - 1 } else e
    let gone := fun (e : Away) => e.ctag == ctag && e.count == 0
    { x with away := away.filter fun e => !gone e
             delivered := x.delivered ++ away.filter fun e => gone e && e.mask != 0#8
             outst := if x.ctag = ctag then x.outst - 1 else x.outst }

/-- The operation's context gives back one outstanding copy, where the operation counts as one (R267). -/
def dropOutstanding (s : State) (op : Op) : State := if countsOutstanding op.ins then giveBack s op.core op.ctag else s

/-- The result-log entry of an operation (R402). -/
def onceRec (s : State) (c id : Nat) : Option OnceRec :=
  match (s.core c).ckpt with
  | some k => k.once.find? fun r => r.id == id
  | none => none

/-- Note how a performed-once operation ended. -/
def onceDone (s : State) (op : Op) : State :=
  s.modCore op.core fun x =>
    { x with ckpt := x.ckpt.map fun k =>
        { k with once := k.once.map fun r => if r.id = op.id then { r with st := .done op.val (op.fails == 0) op.afl } else r } }

/-- An operation issued before the last rollback, which a rerun repeats: what it would deliver is left to its repetition, also once
the reruns are over (R404). -/
def leftToRerun (s : State) (op : Op) : Bool :=
  match (s.core op.core).ckpt with
  | some k => decide (k.first ≤ op.id) && decide (op.id < k.since)
  | none => false

/-- The KIND byte of an operation's failure records (R280). -/
def failKind : Instr → Nat
  | .cpy .. => 1 | .cpyl .. => 2 | .ovl .. => 3 | .mstash .. => 4 | .munst .. => 5 | .post .. => 6
  | .attn .. => 7 | .shsend .. => 7
  | .kvapp .. => 8 | .kvappGap .. => 8 | .kvcomAcc .. => 8 | .kvcomSet .. => 8 | .kvtent .. => 8 | .kvroll .. => 8
  | .kvrscl .. => 8 | .kvfill .. => 8
  | .opbpostArm .. => 9 | .opbpostDec .. => 9 | .hqpush .. => 10 | .hqpop .. => 11 | .exitn .. => 12
  | _ => 0

/-- The completion flag an operation names (R270). -/
def flagOf : Instr → Option Nat
  | .tld _ _ _ _ c => kOf c
  | .tldg _ _ _ _ c => kOf c
  | .tst _ d _ _ _ => kOf d
  | .tsts _ d _ _ _ => kOf d
  | .tmv _ d _ _ | .mstash _ d _ _ _ | .munst _ d _ _ _ | .cpy _ d _ _ _ _ | .cpyl _ d _ _ _ _ _ => kOf d
  | .hqpush _ d _ _ | .hqpop _ d _ _ | .rcmp _ d _ _ _ _ _ _ _ | .rrst _ d _ _ _ _ | .rpred _ d _ _ _ _ _ _ => kOf d
  | .rset _ d _ _ _ _ | .kvapp _ d _ _ _ | .kvappGap _ d _ _ _ _ | .kvcomAcc _ d _ _ _ | .kvcomSet _ d _ _ _ => kOf d
  | .kvroll _ d _ _ | .kvrscl _ d _ _ _ | .kvfill _ d _ _ _ _ | .attn _ d _ _ _ _ | .shsend _ d _ _ _ => kOf d
  | .shrecv _ d _ _ | .exitn _ d _ _ | .ovl _ d _ _ _ _ _ | .opbpostArm _ d _ _ _ | .opbpostDec _ d _ _ => kOf d
  | .post _ d _ _ _ _ _ => kOf d
  | _ => none

/-- Where the failure log's HEAD lives for a context: in CFLOG while it runs, in its saved word while it is away (R280, R398). -/
def savedCflogAddr (a : Away) : Nat := if a.addr % 0x1000 = 0x948 then a.addr + 0x38 else a.addr + 0x30

/-- A context's failure log has one record more, and its failure count rises (R280), also where the shadow store holds them. -/
def Core.noteFailure (x : Core) (op : Op) (head : Nat) : Core :=
  if x.ctag = op.ctag then
    let x := if (x.awayOf op.ctag).isSome then x else { x with ctx := { x.ctx with cflog := bvSet x.ctx.cflog 48 16 (head + 1) } }
    { x with failn := x.failn + 1
             ckpt := x.ckpt.map fun k => if op.id < k.first then
               { k with failn := k.failn + 1, shadow := { k.shadow with cflog := bvSet k.shadow.cflog 48 16 (bvField k.shadow.cflog 48 16 + 1) } }
               else k }
  else { x with parked := x.parked.map fun k => if k.ctag == op.ctag then { k with failn := k.failn + 1 } else k }

/-- Write a failure record and raise the failure count (R280). What a rerun repeats has its record already, and raises the count;
what was issued before the rollback leaves the count to its repetition (R404). -/
def recordFailure (s : State) (op : Op) (kind cause ofs idx : Nat) : State :=
  let x := s.core op.core
  let away := x.awayOf op.ctag
  let live := match away with
    | some a => BitVec.ofNat 64 (awayGet s op.core (savedCflogAddr a) 8)
    | none => if x.ctag = op.ctag then x.ctx.cflog else op.cflog
  let head := bvField live 48 16
  let len := bvField op.cflog 44 4
  let base := bvField op.cflog 5 22 * 32
  let flag := match flagOf op.ins with
    | some f => 0x80 + f
    | none => 0
  let bytes := leBytes cause 2 ++ leBytes kind 1 ++ leBytes flag 1 ++ leBytes op.ctag.toNat 2 ++ leBytes op.core 2
    ++ leBytes op.pc 8 ++ leBytes ofs 8 ++ leBytes idx 4 ++ leBytes (op.scyc.toNat % 2 ^ 32) 4
  let s := if len = 0 ∨ op.orig.isSome then s else writeBytes s (.die (dieOf op.core)) (base + 32 * (head % 2 ^ len)) bytes
  if leftToRerun s op then s else
    let s := match away with
      | some a => awayPut s op.core (savedCflogAddr a) (leBytes (bvSet live 48 16 (head + 1)).toNat 8)
      | none => s
    s.modCore op.core fun x => x.noteFailure op head

/-- Fail an operation's only item: a record, and one outstanding copy less (R280, R281). -/
def failOp (s : State) (op : Op) (cause ofs idx : Nat) : State :=
  dropOutstanding (onceDone (recordFailure s op (failKind op.ins) cause ofs idx) { op with fails := 1 }) op

/-! ## Checkpoint logs (R402) -/

/-- Close an open checkpoint. -/
def Core.closeCkpt (x : Core) : Core := { x with ckpt := none }

/-- Note the prior content of the core-scratchpad lines a repeated write covers; a full log closes the checkpoint. -/
def noteUndo (s : State) (c : Nat) (id : Nat) : List Nat → State
  | [] => s
  | line :: r =>
    let x := s.core c
    let s := match x.ckpt with
      | some k =>
        if id < k.first || k.undo.any (fun e => e.1 == line) then s
        else if k.undo.length ≥ 960 then s.modCore c fun x => { x.closeCkpt with ovf := min 255 (x.ovf + 1) }
        else
          let old := BitVec.ofNat 512 (readNat s (.core c) (line * 64) 64)
          s.modCore c fun x => { x with ckpt := some { k with undo := k.undo ++ [(line, old)] } }
      | none => s
    noteUndo s c id r

/-- The lines `n` bytes from `off` touch. -/
def linesOf (off n : Nat) : List Nat := if n = 0 then [] else upFrom (off / 64) ((off + n - 1) / 64 - off / 64 + 1)

/-- Record a write for a rerun's signature (R403). -/
def noteSig (s : State) (c id : Nat) (sp : Space) (off : Nat) (bytes : List Byte) : State :=
  match (s.core c).ckpt with
  | some k =>
    if k.rerun = 0 || decide (id < k.first) then s
    else s.modCore c fun x => { x with ckpt := some { k with writes := k.writes ++ [⟨id, off, sp.lvl, bytes⟩] } }
  | none => s

/-- A core's write to its own scratchpad by an operation that a rerun repeats (R402 to R404). -/
def writeOwn (s : State) (c id : Nat) (off : Nat) (bytes : List Byte) : State :=
  let s := noteUndo s c id (linesOf off bytes.length)
  let s := noteSig s c id (.core c) off bytes
  writeBytes s (.core c) off bytes

/-! ## Scheduling results -/

/-- Add a result in flight. -/
def Ctx.launch (x : Ctx) (f : Flight) : Ctx := { x with flights := x.flights ++ [f] }

/-- What a scalar result writes: D, ephemeral or not, and the unit's bypass register (R27, R36, R117). -/
def destWrs (u : Unit') (e : Bool) (d : Port) (v : Word) : List Wr :=
  let own := if u.num < 10 then [Wr.byp u.num v] else []
  match d with
  | .s r => (if e then Wr.eph r.val v else Wr.scalar r.val v) :: own
  | .p r => Wr.pred r.val (v != 0) :: own
  | _ => own

/-- A scalar result of unit `u` in slot `slot`, landing after `lat` cycles with its flags (R32, R79). -/
def State.result (s : State) (u : Unit') (slot lat : Nat) (e : Bool) (d : Port) (v : Word) (f : FlagSet) : State :=
  s.modMyCtx fun x => x.launch ⟨s.nextId, lat, u, slot, f, destWrs u e d v⟩

/-- A result with writes of its own. -/
def State.launch (s : State) (u : Unit') (slot lat : Nat) (f : FlagSet) (w : List Wr) : State :=
  s.modMyCtx fun x => x.launch ⟨s.nextId, lat, u, slot, f, w⟩

/-! ## System registers (R109, R137, R141, R220, R222, R227, R289, R309, R338, R364, R371, R375, R394, R407) -/

def LoopEntry.image (e : LoopEntry) : Word := e.limit ++ e.index ++ e.start ++ e.fin
def LoopEntry.ofImage (w : Word) : LoopEntry :=
  ⟨w.extractLsb' 24 20, w.extractLsb' 44 20, w.extractLsb' 12 12, w.extractLsb' 0 12⟩

/-- SEQST (R109). -/
def Seq.seqst (q : Seq) : Word :=
  BitVec.ofNat 64 (q.ptgt.toNat * 2 ^ 24 + q.dsc * 2 ^ 20 + q.pdly * 2 ^ 18 + (if q.halt then 2 ^ 16 else 0) + q.sel * 2 ^ 8 + q.depth)

/-- A written SEQST: DSC and PDLY of 3 are stored as 2, DEPTH of 7 as 6. -/
def Seq.setSeqst (q : Seq) (w : Word) : Seq :=
  { q with ptgt := w.extractLsb' 24 12, dsc := min 2 (bvField w 20 2), pdly := min 2 (bvField w 18 2),
           halt := w.getLsbD 16, sel := bvField w 8 3, depth := min 6 (bvField w 0 3) }

/-- ATAG (R141). -/
def Ctx.atag (x : Ctx) : Word :=
  let t := fun i => (x.tile i).tag
  let tags := (upFrom 0 8).foldl (fun a i => a + (t i).code * 2 ^ (3 * i)) 0
  let live := (upFrom 0 8).foldl (fun a i => a + (if t i = .void then 0 else 2 ^ i)) 0
  BitVec.ofNat 64 (live * 2 ^ 24 + tags)

def Ctx.setAtag (x : Ctx) (w : Word) : Ctx :=
  (upFrom 0 8).foldl (fun x i =>
    match Tag.decode (bvField w (3 * i) 3) with
    | .void => x.zeroTile i .void
    | t => x.tagTile i t) x

/-- EPHST (R137). -/
def Ctx.ephst (x : Ctx) : Word :=
  BitVec.ofNat 64 ((upFrom 0 64).foldl (fun a i => if (vget x.eph i none).isSome then a + 2 ^ i else a) 0)

def Ctx.setEphst (x : Ctx) (w : Word) : Ctx :=
  { x with eph := (upFrom 0 64).foldl (fun e i => vset e i (if w.getLsbD i then some ⟨0, 0⟩ else none)) x.eph }

/-- SHST (R338). -/
def Ctx.shst (x : Ctx) : Word :=
  BitVec.ofNat 64 (x.hi.perm * 2 ^ 28 + x.hi.held * 2 ^ 24 + x.hi.out * 2 ^ 20 + x.hi.pend * 2 ^ 16
    + x.lo.perm * 2 ^ 12 + x.lo.held * 2 ^ 8 + x.lo.out * 2 ^ 4 + x.lo.pend)

/-- A PERM write (R338): 1 to 8, only while OUT and PEND are 0; HELD follows when the grants arrive. -/
def Lane.setPerm (l : Lane) (v : Nat) : Lane :=
  if l.out ≠ 0 ∨ l.pend ≠ 0 then l else
    let p := min 8 (max 1 v)
    if p ≥ l.perm then { l with perm := p, grants := l.grants + (p - l.perm) }
    else
      let cut := l.perm - p
      { l with perm := p, grants := l.grants - cut, held := l.held - (cut - l.grants) }

def Core.istagImage (x : Core) (o : Nat) : Word :=
  let t := vget x.istag o IsTag.empty
  t.img ++ t.len ++ t.ovn ++ 0#11 ++ t.st

/-- INTEG (R407). -/
def Core.integ (x : Core) : Word :=
  let rr := match x.ckpt with
    | some k => decide (k.rerun ≠ 0)
    | none => false
  BitVec.ofNat 64 (x.cec * 2 ^ 48 + x.uec * 2 ^ 40 + x.ovf * 2 ^ 32 + x.ckn.toNat * 2 ^ 16 + (if rr then 4 else 0)
    + (if x.ckpt.isSome then 2 else 0) + (if x.inten then 1 else 0))

/-- CTXCMD (R394). -/
def Core.ctxcmd (x : Core) : Word :=
  BitVec.ofNat 64 ((if x.ctxBusy.isSome then 2 ^ 63 else 0) + (match x.ctxErr with | some e => 2 ^ 62 + e * 2 ^ 53 | none => 0)
    + x.ctxTag.toNat * 8 + x.ctxOp)

/-- PIBWIN (R289): the oldest entry and how many remain behind it. -/
def Core.pibwin (x : Core) : Word :=
  match x.pib with
  | [] => 0
  | e :: r => BitVec.ofNat 64 (2 ^ 63 + r.length * 2 ^ 56 + e.ctag.toNat * 2 ^ 32 + e.flag * 2 ^ 24 + e.amt)

def Hatch.zero : Hatch := ⟨0, 0, 0⟩

/-- The bits of a register that are not reserved; the reserved ones read as zero (R13). -/
def aflBits (w : Word) : Word := w &&& 0x700FF#64
def afteBits (w : Word) : Word := w &&& 0xFF#64
def windowBits (w : Word) : Word := w &&& 0x0FFF0FFF#64
def cflogBits (w : Word) : Word := bvSet (w &&& 0xFFFFF00007FFFFE0#64) 44 4 (min 12 (bvField w 44 4))
def dmrBits (w : Word) : Word := w &&& 0xFFFFFFC0FE00FFFF#64
def reelBits (v : BitVec 16) : BitVec 16 := v &&& 0x8FFF#16

/-- A system register's value (R136); unassigned ports read 0. -/
def sysRead (s : State) (c n : Nat) : Word :=
  let x := s.core c
  let y := x.ctx
  match n with
  | 0 => y.scyc | 1 => y.ephst | 2 => y.atag | 3 => y.bhkey | 4 => x.dsc | 5 => y.spwcl | 6 => y.spwdi | 7 => x.tvec
  | 8 => y.afl | 9 => y.afte | 10 => y.srseed | 11 => y.srctr
  | 12 => x.istagImage 0 | 13 => x.istagImage 1 | 14 => x.istagImage 2 | 15 => x.istagImage 3
  | 16 => y.seq.seqst
  | 17 => if y.seq.sel < 6 then (vget y.seq.loops y.seq.sel LoopEntry.zero).image else 0
  | 18 => BitVec.ofNat 64 (x.kwin * 2 ^ 32 + y.flagVal x.kwin)
  | 19 => y.ksat.setWidth 64 | 20 => x.pibwin | 21 => y.cflog | 22 => y.pcfg
  | 23 => BitVec.ofNat 64 (x.reelSel * 2 ^ 32 + (vget y.reel x.reelSel 0).toNat)
  | 24 => y.shst | 25 => x.hqsel
  | 26 =>
    let h := mget Hatch.zero (bvField x.hqsel 0 8) (s.die (dieOf c)).hatch
    match bvField x.hqsel 8 2 with
    | 0 => h.cfg | 1 => h.bnd | 2 => h.ptr | _ => 0
  | 27 => y.dmr | 28 => x.stepst | 29 => x.ctxspill | 30 => x.ctxcmd | 31 => x.integ
  | _ => 0

/-- A SYSWR landing in a system register: reserved and read-only fields keep their values (R13, R136). A valid hatch queue whose ring
lies in another partition's granule is left alone (R14, R24; notes/assumptions/97.md). -/
def sysWrite (s : State) (c n : Nat) (w : Word) : State :=
  let x := s.core c
  let seq := fun (f : Seq → Seq) => s.modCtx c fun y => { y with seq := f y.seq }
  match n with
  | 0 => s.modCtx c fun y => { y with scyc := w }
  | 1 => s.modCtx c fun y => y.setEphst w
  | 2 => (s.modCtx c fun y => y.setAtag w).modCore c fun x =>
    (upFrom 0 8).foldl (fun x i => if Tag.decode (bvField w (3 * i) 3) = .void then x.zeroFrozen i else x) x
  | 3 => s.modCtx c fun y => { y with bhkey := w }
  | 4 =>
    if bvField w 62 2 = 3 then s else
      let v := w &&& 0xC0FFFFF8001FFFFF#64
      s.modCore c fun x => { x with dsc := if bvField w 35 21 = 0 then v else v ||| 0x2000000000000000#64 }
  | 5 => s.modCtx c fun y => { y with spwcl := windowBits w }
  | 6 => s.modCtx c fun y => { y with spwdi := windowBits w }
  | 7 => s.modCore c fun x => { x with tvec := w &&& 0xC00000000003FFC0#64 }
  | 8 => s.modCtx c fun y => { y with afl := aflBits w }
  | 9 => s.modCtx c fun y => { y with afte := afteBits w }
  | 10 => s.modCtx c fun y => { y with srseed := w }
  | 11 => s.modCtx c fun y => { y with srctr := w }
  | 12 | 13 | 14 | 15 =>
    s.modCore c fun x => { x with istag := vmod x.istag (n - 12) IsTag.empty fun t =>
      ⟨w.extractLsb' 32 32, w.extractLsb' 21 11, w.extractLsb' 13 8, if w.getLsbD 0 then t.st else w.extractLsb' 0 2⟩ }
  | 16 => seq fun q => q.setSeqst w
  | 17 => seq fun q => if q.sel < 6 then { q with loops := vset q.loops q.sel (LoopEntry.ofImage w) } else q
  | 18 =>
    let f := bvField w 32 5
    let s := s.modCore c fun x => { x with kwin := f }
    if w.getLsbD 63 then s.modCtx c fun y => { y with k := vset y.k f (w.extractLsb' 0 20) } else s
  | 19 => s.modCtx c fun y => { y with ksat := y.ksat &&& ~~~(w.extractLsb' 0 32) }
  | 21 => s.modCtx c fun y => { y with cflog := cflogBits w }
  | 22 => s.modCtx c fun y => { y with pcfg := w }
  | 23 =>
    let e := bvField w 32 12
    let s := s.modCore c fun x => { x with reelSel := e }
    if w.getLsbD 63 then s.modCtx c fun y => { y with reel := vset y.reel e (reelBits (w.extractLsb' 0 16)) } else s
  | 24 => s.modCtx c fun y => { y with hi := y.hi.setPerm (bvField w 28 4), lo := y.lo.setPerm (bvField w 12 4) }
  | 25 => s.modCore c fun x => { x with hqsel := w &&& 0x3FF#64 }
  | 26 =>
    let i := bvField x.hqsel 0 8
    let q := mget Hatch.zero i (s.die (dieOf c)).hatch
    let owner := granulePart s (dieOf c) (bvField q.cfg 6 21 * 64 / 0x200000)
    if q.cfg.getLsbD 63 && owner < 8 && owner != x.part then s else s.modDie (dieOf c) fun d =>
      let h := mget Hatch.zero i d.hatch
      let h := match bvField x.hqsel 8 2 with
        | 0 => { h with cfg := w &&& 0xCFFF000007FFFFC0#64 }
        | 1 => { h with bnd := w &&& 0xFFFFFFF8FFFFFFF8#64 }
        | 2 => { h with ptr := w &&& 0x00001FFF0FFF0FFF#64 }
        | _ => h
      { d with hatch := mput Hatch.zero i h d.hatch }
  | 27 => s.modCtx c fun y => { y with dmr := (y.dmr &&& ~~~0x3C00000FFFF#64) ||| (w &&& 0x3C00000FFFF#64) }
  | 28 => s.modCore c fun x => { x with stepst := ((x.stepst ||| w) &&& 0x8000000000000000#64) ||| (w &&& 0x1FF#64) }
  | 29 => s.modCore c fun x => { x with ctxspill := w &&& 0xFFFFFFFFFFFF0000#64 }
  | 30 =>
    let op := bvField w 0 3
    s.modCore c fun x => { x with ctxTag := w.extractLsb' 3 16, ctxOp := op, ctxBusy := if op = 0 ∨ op = 7 then none else some op,
                                  ctxErr := if op = 0 ∨ op = 7 then x.ctxErr else none }
  | 31 => s.modCore c fun x => { x with cec := bvField w 48 16, uec := bvField w 40 8, ovf := bvField w 32 8, inten := w.getLsbD 0 }
  | _ => s

/-! ## Landing (R32, R33, R79, R117, R197, R229) -/

/-- BSET's checks (R197): the CFG and LOC, and the offsets it snapshots. -/
def bsetOk (x : Ctx) (cfg loc : Word) : Option (BitVec 21 × BitVec 21) :=
  let b : Bobbin := { Bobbin.unconfigured with cfg := cfg, loc := loc }
  let w := (b.fmt.map fmtWidth).getD 0
  let ok := bvField cfg 0 19 == 0 && bvField loc 21 35 == 0 && bvField loc 0 8 == 0 && decide (b.tsz ≤ 6) &&
    decide (b.rowsl ≤ 8) && decide (b.colsl ≤ 8) && b.fmt.isSome &&
    decide (2 ^ (b.rowsl + b.colsl) * w ≤ 8 * b.slotBytes) &&
    decide (b.base + b.cap * b.slotBytes + (if b.sb then 8 * b.cap else 0) ≤ 0x1F0000)
  if !ok then none
  else if b.grp = 0 then some (0, 0)
  else
    let hs := x.handle b.sch
    let hz := x.handle b.zph
    if Handle.lvl hs = 0 ∧ Handle.fmt hs = some .f16 ∧ Handle.lvl hz = 0 ∧ Handle.fmt hz = some .i8 ∧ Handle.clean hs ∧ Handle.clean hz then
      some (hs.extractLsb' 0 21, hz.extractLsb' 0 21)
    else none

/-- A core-scratchpad store of this core issued before operation `id` and still to land (R197). -/
def storesBefore (x : Core) (id : Nat) : Bool :=
  x.ag.any fun o => decide (o.id < id) && (match o.ins with
    | .tst .. => Handle.lvl o.ha == 0 | .tsts .. => Handle.lvl o.ha == 0 | _ => false)

/-- What an LDS reads in its access cycle (R229). -/
def loadVal (s : State) (c a n : Nat) (sx : Bool) : Word :=
  let v := readNat s (.core c) a n
  if sx then BitVec.ofInt 64 (sextNat (8 * n) v) else BitVec.ofNat 64 v

/-- What a landing write does. `f` is the flight it belongs to. BSET leaves the claims under keep, which lower no QP, to their operations
(R194, R197). -/
def landWr (c : Nat) (f : Flight) (s : State) (w : Wr) : State :=
  match w with
  | .scalar .. | .eph .. | .byp .. | .pred .. => s.modCtx c fun x => x.takeWr w
  | .handle r v => s.modCtx c fun x => { x with h := vset x.h r v }
  | .row t r v => s.modCtx c fun x => x.setRow t r v
  | .rowPart t r lo n v => s.modCtx c fun x =>
    let m : Row := (BitVec.ofNat 2048 (2 ^ n - 1)) <<< lo
    x.setRow t r ((x.row t r &&& ~~~m) ||| (v &&& m))
  | .norm j v => s.modCtx c fun x => { x with norms := vset x.norms j v }
  | .dir j v => s.modCtx c fun x => { x with dirs := vset x.dirs j v }
  | .sysreg n v => sysWrite s c n v
  | .dmr v => sysWrite s c 27 v
  | .bset b cfg loc =>
    match bsetOk (s.core c).ctx cfg loc with
    | some (sbo, zbo) => s.modCtx c fun x =>
        x.modBobbin b fun o =>
          { Bobbin.unconfigured with v := true, cfg := cfg, loc := loc, sbo := sbo, zbo := zbo, claims := o.claims.filter (·.keep) }
    | none => s.hold c (Held.report 0x0F1 (slotMask 2) 0)
  | .bpush b n id =>
    if storesBefore (s.core c) id then s.modCtx c fun x => x.launch { f with rem := 1, flags := 0, wrs := [w] }
    else
      let bo := (s.core c).ctx.bobbin b
      if n.toNat > bo.cap - bo.cnt then s.hold c (Held.report 0x0F2 (slotMask 2) 0)
      else s.modCtx c fun x => x.modBobbin b fun bo => bo.pushN n.toNat
  | .bpop b n =>
    let bo := (s.core c).ctx.bobbin b
    if n.toNat > bo.cnt then s.hold c (Held.report 0x0F2 (slotMask 2) 0)
    else s.modCtx c fun x => x.modBobbin b fun bo => bo.popN n.toNat
  | .store a n v id => writeOwn s c id a (leBytes v.toNat n)
  | .load a n sx d e => s.modCtx c fun x => x.launch { f with rem := 3, flags := 0, wrs := destWrs .ag e d (loadVal s c a n sx) }
  | .void .. => s
  | .flag k => s.modCtx c fun x => x.bump k 1

/-- Insert into a list in issue order; equal numbers keep their order. -/
def insertById (f : Flight) : List Flight → List Flight
  | [] => [f]
  | g :: r => if f.id < g.id then f :: g :: r else g :: insertById f r

/-- Flights in issue order. -/
def byId (l : List Flight) : List Flight := l.foldl (fun a f => insertById f a) []

/-- What kind of landing a flight is: a scalar result, a row, a norm, a direction. -/
inductive LandKind where
  | result | row | norm | dir
deriving DecidableEq, Repr

def Flight.kind (f : Flight) : LandKind :=
  if f.wrs.any fun w => match w with | .norm .. => true | _ => false then .norm
  else if f.wrs.any fun w => match w with | .dir .. => true | _ => false then .dir
  else if f.wrs.any fun w => match w with | .row .. => true | .rowPart .. => true | .void .. => true | _ => false then .row else .result

/-- The scalar, predicate or bypass port a write lands in, by a number of the model's. -/
def Wr.place : Wr → Option Nat
  | .scalar r _ | .eph r _ => some r
  | .pred r _ => some (0x70 + r)
  | .byp u _ => some (0x60 + u)
  | _ => none

/-- The ports that flights land in, each with the flight's number (R33). -/
def placesOf (l : List Flight) : List (Nat × Nat) := l.flatMap fun f => (f.wrs.filterMap Wr.place).map fun p => (p, f.id)

/-- Land the results that are due now, in issue order (R33), then raise their flags (R79). -/
def landThose (s : State) (c : Nat) (now : Flight → Bool) : State :=
  let due := byId ((s.core c).ctx.flights.filter now)
  let s := s.modCore c fun x =>
    { x with landed := x.landed ++ placesOf due, ctx := { x.ctx with flights := x.ctx.flights.filter fun f => !now f } }
  let s := due.foldl (fun s f => f.wrs.foldl (landWr c f) s) s
  due.foldl (fun s f => if f.flags = 0#8 then s else s.modCore c fun x => x.raiseFlags f.flags f.slot) s

/-- Land every due result of one kind. -/
def landDue (s : State) (c : Nat) (kind : LandKind) : State := landThose s c fun f => f.rem == 0 && f.kind == kind

/-- Everything due lands, whatever its kind, in issue order; the flags of the cycle come after a SYSWR to AFL (R33, R79). -/
def landAll (s : State) (c : Nat) : State := landThose s c fun f => f.rem == 0

/-- An ephemeral copy whose life has ended is gone; its register stays expired (R117). -/
def expire (s : State) (c r : Nat) : State :=
  s.modCtx c fun x =>
    match vget x.eph r none with
    | some e => if e.life = 0 then { x with eph := vset x.eph r (some ⟨0, 0⟩) } else x
    | none => x

/-- One more schedule cycle: every distance falls by 1; in U mode SCYC rises and ephemeral lives fall (R114, R117, R385). -/
def Core.advance (x : Core) : Core :=
  let y := { x.ctx with flights := x.ctx.flights.map fun f => { f with rem := f.rem - 1 } }
  let y := if x.mode = .u then
      { y with scyc := y.scyc + 1, eph := y.eph.map fun e => e.map fun e => { e with life := e.life - 1 } }
    else y
  { x with ctx := y, landed := [] }

/-- Every ephemeral copy whose life has ended is gone. -/
def Ctx.expireAll (x : Ctx) : Ctx :=
  { x with eph := x.eph.map fun e => match e with
    | some v => if v.life = 0 then some ⟨0, 0⟩ else some v
    | none => none }

/-- A schedule cycle begins: what is due in it lands (R32). -/
def landCycle (s : State) (c : Nat) : State := landAll (s.modCtx c Ctx.expireAll) c

/-! ## The trace set-up block (R411) -/

/-- The block's reserved bits are zero. -/
def tsbOk (t : BitVec 512) : Bool :=
  bvField t 84 4 == 0 && bvField t 88 8 == 0 && bvField t 320 64 == 0 && bvField t 411 5 == 0 && bvField t 480 32 == 0 &&
    [192, 224].all fun o => bvField t (o + 3) 6 == 0 && bvField t (o + 21) 11 == 0

/-- The trace unit reads the block at a step start and at an ERET: trace is on with a page list, unless a block of this step has had
a reserved bit set. -/
def Trace.load (t : Trace) (tsb : BitVec 512) : Trace :=
  let spoilt := t.spoilt || !tsbOk tsb
  { t with tsb := tsb, spoilt := spoilt, on := !spoilt && bvField tsb 64 16 != 0, page := bvField tsb 384 16, idx := bvField tsb 400 11,
           drop := bvField tsb 416 32, tflt := bvField tsb 448 32, bad := 0 }

/-- NPG of the block as read. -/
def Trace.npg (t : Trace) : Nat := bvField t.tsb 64 16

/-- The position after one more record (R414). -/
def Trace.next (t : Trace) : Trace :=
  { t with idx := if t.idx = 2047 then 0 else t.idx + 1, page := if t.idx = 2047 then (t.page + 1) % t.npg else t.page }

/-- The position after `n` more records. -/
def Trace.ahead (t : Trace) : Nat → Trace
  | 0 => t
  | n + 1 => Trace.ahead t.next n

/-- Nothing is left to write, or no page takes it (R414, R415). -/
def Trace.idle (t : Trace) : Bool := t.buf.isEmpty && (t.fault.isNone || decide (t.npg ≤ t.bad))

/-- Bytes 48 to 59 of the block, as written back at an entry to S mode: WPOS, DROP and TFLT. WPOS is where the first record after those
still buffered goes: DESIGN CHOICE (notes/assumptions/98.md). -/
def Trace.back (t : Trace) : List Byte :=
  let u := t.ahead (t.buf.length + t.fault.toList.length)
  leBytes (u.page + u.idx * 65536) 4 ++ leBytes t.drop 4 ++ leBytes t.tflt 4

/-! ## Taking a trap (R382 to R389) -/

/-- The address of the context save area in core scratchpad (R388). -/
def saveArea : Nat := 0x1F0000
/-- Where the in-flight list begins (R387). -/
def listStart : Nat := saveArea + 0x1000

/-- The value a flight carries in its list entry's VAL, if it has one: a scalar result, a norm, its bypass write, the data of a
store, the count or CFG of a bobbin instruction. -/
def Flight.entryVal (f : Flight) : Option Word :=
  f.wrs.findSome? fun w => match w with
    | .scalar _ v => some v | .eph _ v => some v | .pred _ v => some (if v then 1 else 0)
    | .norm _ v => some (v.setWidth 64) | .byp _ v => some v | .sysreg _ v => some v | .dmr v => some v
    | .store _ _ v _ => some v | .bset _ v _ => some v | .bpush _ v _ => some v | .bpop _ v => some v | _ => none

/-- The row or direction a flight carries, or a handle, which takes the first 32 bytes of a payload (notes/assumptions/92.md). -/
def Flight.payload (f : Flight) : Option Row :=
  f.wrs.findSome? fun w => match w with
    | .row _ _ v => some v | .rowPart _ _ _ _ v => some v | .void _ _ v => some v | .dir _ v => some v
    | .handle _ v => some (v.setWidth 2048) | _ => none

/-- The destination port and row number of a flight's entry. -/
def Flight.entryPort (f : Flight) : Nat × Nat :=
  (f.wrs.findSome? fun w => match w with
    | .scalar r _ => some (r, 0) | .eph r _ => some (r, 0) | .pred r _ => some (0x70 + r, 0) | .handle r _ => some (0x40 + r, 0)
    | .row t r _ => some (0x80 + t, r) | .rowPart t r _ _ _ => some (0x80 + t, r) | .void t r _ => some (0x80 + t, r)
    | .norm j _ => some (0xA0 + j, 0) | .dir j _ => some (0x90 + j, 0) | .flag k => some (0xC0 + k, 0)
    | .sysreg n _ => some (0xE0 + n, 0) | .dmr _ => some (0xFB, 0) | .bset b _ _ => some (0xB0 + b, 0) | .bpush b _ _ => some (0xB0 + b, 0)
    | .bpop b _ => some (0xB0 + b, 0) | .load _ _ _ d _ => some (d.toNat, 0) | _ => none).getD (0x7F, 0)

/-- KIND of a flight's entry: 1 for a row, norm or direction, else 0 (R389). -/
def Flight.entryKind (f : Flight) : Nat := if f.kind = .result then 0 else 1

/-- An entry of the in-flight list: a result, or an operation not yet finished, with its issue number (R389). -/
inductive Entry where
  | flight (f : Flight)
  | rowOp (sf : Bool) (o : RowOp)
  | mxOp (o : Op)
  | mxRun (r : MxRun)
  | atom (o : Op)
  | fence (o : Op)
  | tmOp (o : Op)
deriving DecidableEq, Repr

def Entry.id : Entry → Nat
  | .flight f => f.id | .rowOp _ o => o.id | .mxOp o => o.id | .mxRun r => r.op.id
  | .atom o => o.id | .fence o => o.id | .tmOp o => o.id

def insertEntry (e : Entry) : List Entry → List Entry
  | [] => [e]
  | g :: r => if e.id < g.id then e :: g :: r else g :: insertEntry e r

/-- Is this an ATOM? -/
def isAtom : Instr → Bool
  | .atomAdd .. | .atomInc .. | .atomDec .. | .atomMin .. | .atomMax .. => true
  | .atomAnd .. | .atomOr .. | .atomXor .. | .atomXchg .. | .atomCas .. => true
  | _ => false

/-- The offset an ATOM adds to its A (R259). -/
def atomOff : Instr → Word
  | .atomAdd _ _ _ _ _ _ _ _ o | .atomInc _ _ _ _ _ _ _ _ o | .atomDec _ _ _ _ _ _ _ _ o => o.signExtend 64
  | .atomMin _ _ _ _ _ _ _ _ _ o | .atomMax _ _ _ _ _ _ _ _ _ o => o.signExtend 64
  | .atomAnd _ _ _ _ _ _ _ _ o | .atomOr _ _ _ _ _ _ _ _ o | .atomXor _ _ _ _ _ _ _ _ o => o.signExtend 64
  | .atomXchg _ _ _ _ _ _ _ _ o | .atomCas _ _ _ _ _ _ _ _ _ o => o.signExtend 64
  | _ => 0

def RowUnit.ops (u : RowUnit) : List RowOp := u.cur.toList ++ u.queue

/-- Everything a context frozen by a trap has in flight, in issue order (R383, R389); what the handler issued itself is no part
of it. -/
def Core.entries (x : Core) (flights : List Flight) (va sf : RowUnit) : List Entry :=
  let l := flights.map .flight ++ va.ops.map (.rowOp false) ++ sf.ops.map (.rowOp true)
    ++ (x.mx.toList.map .mxRun) ++ x.mxq.map .mxOp ++ (x.ag.filter fun o => isAtom o.ins && !o.smode).map .atom
    ++ (x.fences.filter fun o => !o.smode).map .fence ++ x.tm.map .tmOp
  l.foldl (fun a e => insertEntry e a) []

/-- The entries of a frozen core. -/
def Core.frozenEntries (x : Core) : List Entry := x.entries x.frozen x.frozenVa x.frozenSf

/-- The 64 bits an instruction was encoded by, without its stop bit; 0 for an event. -/
def slotBits (i : Instr) : Nat := match encodeSlot false i with
  | some (_, w) => w.toNat
  | none => 0

/-- The D field of an instruction's encoding; 0x7F where it names no destination (R389). -/
def slotPort (i : Instr) : Nat :=
  match i with
  | .mmask .. | .msync .. | .fence .. | .rsetCfg .. => 0x7F
  | i => field (slotBits i) 43 8

/-- KIND and UNIT of an entry, and what else tells it from another of the same kind: port and row of a result, the slot encoding of
an operation (R389). -/
def Entry.key : Entry → Nat × Nat × Nat × Nat
  | .flight f => (f.entryKind, f.unit.num, f.entryPort)
  | .rowOp sf o => (2, if sf then 5 else 3, slotBits o.ins, 0)
  | .mxOp o => (2, 6, slotBits o.ins, 0)
  | .mxRun r => (3, 6, slotBits r.op.ins, 0)
  | .atom o => (4, 2, slotBits o.ins, 0)
  | .fence o => (5, 2, slotBits o.ins, 0)
  | .tmOp o => (2, 7, slotBits o.ins, 0)

/-- The bytes of an entry, padded to a multiple of 32 (R389). The values of C and F take the payload's first 16 bytes, of which
VLEN counts 8 (notes/assumptions/92.md). -/
def Entry.bytes (e : Entry) : List Byte :=
  let head := fun (port rem aux vlen val opa opb : Nat) =>
    leBytes e.key.1 1 ++ leBytes e.key.2.1 1 ++ leBytes port 1 ++ leBytes rem 1 ++ leBytes aux 2 ++ leBytes vlen 2
      ++ leBytes val 8 ++ leBytes opa 8 ++ leBytes opb 8
  let op := fun (i : Instr) (aux : Nat) (a b c f : Word) =>
    head (slotPort i) 0 aux 8 (slotBits i) a.toNat b.toNat ++ leBytes c.toNat 8 ++ leBytes f.toNat 24
  match e with
  | .flight f =>
    let (port, aux) := f.entryPort
    let val := (f.entryVal.getD 0).toNat
    match f.payload with
    | some row => head port f.rem aux 256 val 0 0 ++ leBytes row.toNat 256
    | none => head port f.rem aux 0 val 0 0
  | .rowOp _ o => op o.ins o.row o.a o.b o.c 0
  | .mxOp o => op o.ins 0 o.a o.b o.c o.f
  | .mxRun r => head (slotPort r.op.ins) 0 r.left 0 (slotBits r.op.ins) r.op.a.toNat r.op.b.toNat
  | .atom o =>
    let held := decide (o.phase = .performed)
    head (slotPort o.ins) 0 (if held then 1 else 0) 0 (slotBits o.ins) (if held then o.val else o.a - atomOff o.ins).toNat o.b.toNat
  | .fence o => head (slotPort o.ins) 0 0 0 (slotBits o.ins) 0 0
  | .tmOp o => op o.ins 0 o.a o.b o.c 0

/-- Write the pieces of a frame: offset, byte count, value. -/
def writeFrame (s : State) (c base : Nat) : List (Nat × Nat × Nat) → State
  | [] => s
  | (o, n, v) :: r => writeFrame (writeNat s (.core c) (base + o) n v) c base r

/-- Little-endian packing of a file of equal entries. -/
def packFile {w n : Nat} (v : Vector (BitVec w) n) : Nat := v.toList.foldr (fun x a => x.toNat + a * 2 ^ w) 0

/-- The trap record (R387), as a 512-bit number. -/
def trapRecord (x : Core) (c : Nat) (h : Held) (post : Bool) (scyc : Word) (ifcnt : Nat) : Nat :=
  let q := x.ctx.seq
  let lidx := (upFrom 0 6).foldl (fun a j => a + (vget q.loops j LoopEntry.zero).index.toNat * 2 ^ (20 * j)) 0
  let st := (if post then 1 else 0) + (if q.halt then 2 else 0) + (if h.async then 4 else 0) + (if h.notice then 8 else 0)
  h.cause + h.mask.toNat * 2 ^ 16 + st * 2 ^ 24 + x.ctag.toNat * 2 ^ 32 + h.detail.toNat * 2 ^ 48 + scyc.toNat * 2 ^ 64
    + (q.pc % 2 ^ 18 + q.grp * 2 ^ 18 + q.pdly * 2 ^ 21 + q.dsc * 2 ^ 23 + q.depth * 2 ^ 25) * 2 ^ 128
    + (q.ptgt.toNat + ifcnt * 2 ^ 16) * 2 ^ 160 + h.addr.toNat * 2 ^ 192 + h.ofs.toNat * 2 ^ 256
    + lidx * 2 ^ 320 + 0x1F1000 * 2 ^ 448 + c * 2 ^ 480

/-- The parts of the register frame written both at a trap and by SPILL (R388). -/
def frameCommon (x : Ctx) : List (Nat × Nat × Nat) :=
  [(0x040, 8, x.seq.seqst.toNat),
   (0x048, 48, (upFrom 0 6).foldr (fun j a => (vget x.seq.loops j LoopEntry.zero).image.toNat + a * 2 ^ 64) 0),
   (0x080, 512, packFile x.s), (0x2D0, 8, (x.p ||| 1#8).toNat), (0x300, 1024, packFile x.h)]

/-- The parts written at a trap only (R388). -/
def frameTrap (x : Ctx) : List (Nat × Nat × Nat) :=
  [(0x280, 80, packFile x.byp), (0x2D8, 8, x.ephst.toNat),
   (0x700, 512, packFile (x.eph.map fun e => match e with | some v => v.val | none => 0)),
   (0x900, 64, packFile (x.eph.map fun e => match e with | some v => BitVec.ofNat 8 v.life | none => 0#8))]

/-- The zero fields of the frame. -/
def frameZero : List (Nat × Nat × Nat) := [(0x078, 8, 0), (0x2E0, 32, 0), (0xAC0, 1088, 0)]

/-- The step completion record (R363). -/
def stepRecord (x : Core) (c out cause : Nat) : Nat :=
  x.task + x.ctag.toNat * 2 ^ 16 + c * 2 ^ 32 + out * 2 ^ 48 + cause * 2 ^ 64 + (min 65535 x.failn) * 2 ^ 80
    + x.lin * 2 ^ 128 + x.ctx.scyc.toNat * 2 ^ 192

/-! ## The step completion ring (R434) -/

/-- The physical address of a PCIe address (R236). -/
def hostPa (a : Nat) : Nat := 2 ^ 51 + a % 2 ^ 51

/-- Signal an MSI-X vector (R425). -/
def State.signal (s : State) (v : Nat) : State := { s with msix := s.msix ||| (1#32 <<< (v % 32)) }

/-- A step of a task has retired: done, failed, or, with cause 0x174, 0x175 or 0x176, to be dispatched again, for 0x175 to
another core (R363, R399). -/
def Tcb.retire (t : Tcb) (lin core out cause : Nat) : Tcb :=
  let t := { t with live := t.live.erase lin }
  if out = 0 then { t with done := t.done + 1 }
  else if cause = 0x174 ∨ cause = 0x176 then { t with redo := t.redo ++ [(lin, none)] }
  else if cause = 0x175 then { t with redo := t.redo ++ [(lin, some core)] }
  else { t with fails := t.fails + 1, cause := if t.fails = 0 then cause else t.cause }

/-- Fields of a record. -/
def RingRec.out (r : RingRec) : Nat := bvField r.bits 48 8
def RingRec.cause (r : RingRec) : Nat := bvField r.bits 64 9
/-- A TCB event, for which the scheduler waits: not the report of a core. -/
def RingRec.isTcbEvent (r : RingRec) : Bool := r.out == 2 && r.cause != 0x17F && r.cause != 0x175

/-- The ring is full. -/
def Part.ringFull (p : Part) : Bool := decide ((p.scrprod - p.scrcons).toNat = 2 ^ p.d 168 1)

/-- The oldest waiting record is appended once there is room: it is written, SCRPROD rises, the vector is signalled, and what
waited for it happens: the TCB is updated and the step's core is free. -/
def ringStep (s : State) (p : Nat) : State :=
  let x := s.part p
  match x.ring with
  | [] => s
  | r :: rest =>
    if !x.set || x.ringFull || !(r.after.all fun c => (s.core c).trace.idle) then s else
      let s := writeNat s .pa (hostPa (x.d 160 8 + 32 * (x.scrprod.toNat % 2 ^ x.d 168 1))) 32 r.bits.toNat
      let s := s.modPart p fun x =>
        { x with ring := rest, scrprod := x.scrprod + 1
                 tcbs := if r.out = 2 then x.tcbs else x.tcbs.map fun (h, t) =>
                   if h = bvField r.bits 0 16 then (h, t.retire (bvField r.bits 128 64) (bvField r.bits 32 16) r.out r.cause) else (h, t) }
      let s := s.signal (x.d 169 1)
      match r.core with
      | some c => s.modCore c fun y => if y.act = .recording then { y with act := .free } else y
      | none => s

/-- Give a record to a partition's completion ring: it is appended at once unless the ring is full or others wait. -/
def ringAppend (s : State) (p : Nat) (bits : Nat) (core : Option Nat) (after : Option Nat := none) : State :=
  let first := (s.part p).ring.isEmpty
  let s := s.modPart p fun x => { x with ring := x.ring ++ [⟨BitVec.ofNat 256 bits, core, after⟩] }
  if first then ringStep s p else s

/-- A context that is not running, as the identity of a core. -/
def Core.withParked (x : Core) (k : Parked) : Core :=
  { x with ctag := k.ctag, part := k.part, task := k.task, lin := k.lin, failn := k.failn, ctx := { x.ctx with scyc := k.scyc } }

/-- A core stops for good: its step ends with the cause, a retired core's parked contexts end likewise, and the host is told
(R386, R406, R434). -/
def stopCore (s : State) (c : Nat) (act : Act) (cause : Nat) : State :=
  let x := s.core c
  let fin := fun (s : State) (x : Core) => ringAppend s x.part (stepRecord x c 1 cause) none (some c)
  let busy := (x.act == .running || x.act == .starting) && !x.atEnd
  let s := if busy then fin s x else s
  let s := if act = .retired then
      (x.parked.filter fun k => !k.atEnd).foldl (fun s k => fin s (x.withParked k)) s
    else s
  let x := if busy then { x with lin := 0 } else { x with lin := 0, task := 0, ctag := 0 }
  let s := if x.part < 8 then ringAppend s x.part (stepRecord x c 2 cause) none else s
  let s := { s with status := { s.status with ret := min 255 (s.status.ret + 1) } }
  s.modCore c fun x => { x with act := act, hold := none, committing := false, arrived := none, phaseEnd := none, parked := if act = .retired then [] else x.parked }

/-- An LDS whose access cycle is the frozen one enters the list as its result, three cycles from landing (R229, R383). -/
def Flight.freeze (s : State) (c : Nat) (f : Flight) : Flight :=
  match f.wrs with
  | [.load a n sx d e] => { f with rem := f.rem + 3, flags := 0, wrs := destWrs .ag e d (loadVal s c a n sx) }
  | _ => f

/-- Freeze a core and enter its trap handler (R382 to R389). `post` says the cause fell at the end of its cycle, `scyc`
the schedule cycle of the event. The set-up block gets its position and counts back where it has been read since the step began (R411). The
sequencer keeps SEL (R385). A trap in S mode is a double trap, and so is the fetch that
follows an entry with no handler installed (R386). -/
def takeTrap (s : State) (c : Nat) (h : Held) (post : Bool) (scyc : Word) : State :=
  let x := s.core c
  if x.mode = .s then stopCore s c .stopped 0x17F
  else
    let y := x.ctx
    let fl := y.flights.map (Flight.freeze s c)
    let es := x.entries fl y.va y.sf
    let s := writeNat s (.core c) saveArea 64 (trapRecord x c h post scyc es.length)
    let s := writeFrame s c saveArea (frameCommon y ++ frameTrap y ++ frameZero)
    let s := writeBytes s (.core c) listStart (es.flatMap Entry.bytes)
    let s := if x.trace = Trace.off then s else writeBytes s (.core c) (saveArea + 0xFFF0) x.trace.back
    let s := s.modCore c fun x =>
      { x with mode := .s, landed := [], hold := none, committing := false, due := [], ckpt := none, frozen := fl,
               held := (x.due.filter (· != h)).foldl (fun l d => joinHeld d l) x.held
               frozenVa := y.va, frozenSf := y.sf, frozenNops := y.nops, frozenPops := y.seq.pops, frozenAt := s.nextId,
               frozenYield := x.yielding, yielding := none
               ctx := { x.ctx with flights := [], va := RowUnit.idle, sf := RowUnit.idle, nops := 0,
                                   seq := { Seq.zero with pc := 64 * bvField x.tvec 6 12, sel := y.seq.sel } } }
    if x.tvec.getLsbD 63 then s else stopCore s c .stopped 0x17F

/-! ## Returning from a trap (R390) -/

/-- Read a packed file back from the frame. -/
def unpackFile (w n : Nat) (x : Nat) (d : BitVec w) : Vector (BitVec w) n :=
  (upFrom 0 n).foldl (fun v i => vset v i (BitVec.ofNat w (x >>> (w * i)))) (Vector.replicate n d)

/-- Read the register frame back (R388, R390). A program counter is a multiple of 64 whatever the frame holds (R10, R93). -/
def loadFrame (s : State) (c : Nat) (x : Ctx) : Ctx :=
  let g := fun o n => readNat s (.core c) (saveArea + o) n
  let vals := unpackFile 64 64 (g 0x700 512) 0
  let lives := unpackFile 8 64 (g 0x900 64) 0
  let ephst := g 0x2D8 8
  let q := x.seq.setSeqst (BitVec.ofNat 64 (g 0x040 8))
  let q := { q with loops := (upFrom 0 6).foldl (fun v j => vset v j (LoopEntry.ofImage (BitVec.ofNat 64 (g (0x048 + 8 * j) 8)))) q.loops,
                    pc := g 0x010 4 % 2 ^ 18 / 64 * 64, grp := (g 0x010 4 >>> 18) % 8, halt := bitAt (g 3 1) 1, pops := 0, skip := 0,
                    boundary := false, fetched := none }
  { x with
    seq := q, s := unpackFile 64 64 (g 0x080 512) 0, byp := unpackFile 64 10 (g 0x280 80) 0,
    p := BitVec.ofNat 8 (g 0x2D0 1) ||| 1#8, h := unpackFile 256 32 (g 0x300 1024) 0,
    eph := (upFrom 0 64).foldl (fun v i => vset v i
      (if bitAt ephst i then some ⟨vget vals i 0, (vget lives i 0).toNat⟩ else none)) (Vector.replicate 64 none),
    scyc := BitVec.ofNat 64 (g 8 8 + g 3 1 % 2) }

/-- A frozen result with the value, payload and remaining distance its list entry now holds (R390). -/
def Flight.reload (f : Flight) (rem val : Nat) (row : Row) : Flight :=
  { f with
    rem := rem
    wrs := f.wrs.map fun w => match w with
      | .scalar r _ => .scalar r (BitVec.ofNat 64 val) | .eph r _ => .eph r (BitVec.ofNat 64 val)
      | .pred r _ => .pred r (val % 2 == 1) | .norm j _ => .norm j (BitVec.ofNat 32 val)
      | .byp u _ => .byp u (BitVec.ofNat 64 val) | .sysreg n _ => .sysreg n (BitVec.ofNat 64 val)
      | .dmr _ => .dmr (BitVec.ofNat 64 val) | .row t r _ => .row t r row | .handle r _ => .handle r (row.setWidth 256)
      | .store a n _ i => .store a n (BitVec.ofNat 64 val) i | .bset b _ l => .bset b (BitVec.ofNat 64 val) l
      | .bpush b _ i => .bpush b (BitVec.ofNat 64 val) i | .bpop b _ => .bpop b (BitVec.ofNat 64 val)
      | .rowPart t r lo n _ => .rowPart t r lo n row | .dir j _ => .dir j row | w => w }

/-- The unit of a UNIT byte (R389). -/
def Unit'.ofNum (n : Nat) : Unit' :=
  match n with
  | 0 => .sa0 | 1 => .sa1 | 2 => .ag | 3 => .va | 4 => .dv | 5 => .sf | 6 => .mx | 7 => .tm | 8 => .ce | 9 => .sy | _ => .br

/-- What an entry of KIND 0 or 1 writes to a port, where the list holds one that the trap did not put there (R389, R390). -/
def portWrs (kind unit port aux val : Nat) (row : Row) : List Wr :=
  let v := BitVec.ofNat 64 val
  let own := if kind = 0 ∧ unit < 10 then [Wr.byp unit v] else []
  if port < 0x40 then Wr.scalar port v :: own
  else if port < 0x60 then [.handle (port - 0x40) (row.setWidth 256)]
  else if 0x70 ≤ port ∧ port < 0x78 then Wr.pred (port - 0x70) (val % 2 == 1) :: own
  else if 0x80 ≤ port ∧ port < 0x88 then [.row (port - 0x80) (aux % 64) row]
  else if 0x90 ≤ port ∧ port < 0xA0 then [.dir (port - 0x90) row]
  else if 0xA0 ≤ port ∧ port < 0xB0 then [.norm (port - 0xA0) (BitVec.ofNat 32 val)]
  else if 0xC0 ≤ port ∧ port < 0xE0 then .flag (port - 0xC0) :: own
  else if 0xE0 ≤ port ∧ port < 0x100 then .sysreg (port - 0xE0) v :: own
  else own

/-- An operation's entry with the slot encoding the list now holds, where that is an instruction of the same unit. -/
def recoded (i : Instr) (bits : Nat) : Option Instr :=
  if bits = slotBits i then some i else
    match decodeSlot (((encodeSlot false i).map (·.1)).getD 0) (BitVec.ofNat 64 bits) with
    | .ok j => some j
    | _ => none

/-- The slot of a bundle that holds the instructions of a unit, by its UNIT byte. -/
def unitSlot (u : Nat) : Nat :=
  match u with
  | 0 => 0 | 1 => 1 | 2 => 2 | 3 => 3 | 4 => 4 | 5 => 4 | 6 => 5 | 7 => 6 | 8 => 6 | _ => 7

/-- The handle that a port byte of an instruction's encoding names. -/
def Ctx.handleAt (x : Ctx) (port : Nat) : HandleBits := if 0x40 ≤ port ∧ port < 0x60 then x.handle (port - 0x40) else 0

/-- An operation that the handler has put into the list, with the operand values its entry holds and the handles its ports name as the
frame holds them: DESIGN CHOICE (notes/assumptions/92.md). -/
def Core.listOp (x : Core) (c id : Nat) (y : Ctx) (i : Instr) (va vb vc vf : Word) : Op :=
  let bits := slotBits i
  { id := id, ins := i, core := c, part := x.part, ctag := x.ctag, pc := y.seq.pc, scyc := y.scyc, cflog := y.cflog, smode := false
    spwcl := y.spwcl, spwdi := y.spwdi, a := va, b := vb, c := vc, f := vf, ha := y.handleAt (field bits 35 8), hb := y.handleAt (field bits 27 8)
    hc := match i with | .rcmp _ _ _ _ _ sh .. => y.handle sh.toNat | _ => y.handleAt (field bits 18 8)
    slot := 0, phase := .queued, idx := 0, val := 0, data := [], fails := 0, afl := 0, orig := none, mute := false
    tag := (y.tile (tOf (Port.ofByte (BitVec.ofNat 8 (field bits 35 8))))).tag, dead := false, err := none }

/-- An entry of the list that stands for nothing the trap froze: a result lands all the same, and an operation enters its unit
(R389, R390). `id` is a number of its own. -/
def newEntry (s : State) (c o id : Nat) : Option Entry :=
  let g := fun k m => readNat s (.core c) (o + k) m
  let w := fun k => BitVec.ofNat 64 (g k 8)
  let x := s.core c
  if g 0 1 ≤ 1 then
    some (.flight ⟨id, g 3 1, Unit'.ofNum (g 1 1), 0, 0#8, portWrs (g 0 1) (g 1 1) (g 2 1) (g 4 2) (g 8 8) (BitVec.ofNat 2048 (g 32 256))⟩)
  else
    match decodeSlot (unitSlot (g 1 1)) (BitVec.ofNat 64 (g 8 8)) with
    | .ok i =>
      let y := loadFrame s c x.ctx
      let vc := if g 6 2 < 8 then 0#64 else w 32
      let op := x.listOp c id y i (w 16) (w 24) vc (if g 6 2 < 8 then 0#64 else w 40)
      match g 0 1, g 1 1 with
      | 2, 3 => some (.rowOp false ⟨id, i, w 16, w 24, vc, .void, .void, g 4 2, 0, 0, 0, 0, false⟩)
      | 2, 5 => some (.rowOp true ⟨id, i, w 16, w 24, vc, .void, .void, g 4 2, 0, 0, 0, 0, false⟩)
      | 2, 6 => some (.mxOp op)
      | 2, 7 => some (.tmOp op)
      | 3, 6 => some (.mxRun ⟨op, g 4 2, 0, 0, [], 0#8⟩)
      | 4, 2 =>
        if !isAtom i then none
        else if g 4 2 = 1 then some (.atom { op with phase := .performed, val := w 16 })
        else some (.atom { op with a := w 16 + atomOff i })
      | 5, 2 => some (.fence op)
      | _, _ => none
    | _ => none

/-- One entry of the list as ERET reads it back from offset `o`, `e` being the frozen entry it stands for, if there is one
(R389, R390). -/
def readEntry (s : State) (c o id : Nat) (e : Option Entry) : Option Entry :=
  let g := fun k m => readNat s (.core c) (o + k) m
  let w := fun k => BitVec.ofNat 64 (g k 8)
  let row := BitVec.ofNat 2048 (g 32 256)
  match e with
  | some (.flight f) =>
    if f.entryKind = g 0 1 ∧ f.unit.num = g 1 1 ∧ f.entryPort = (g 2 1, g 4 2) then some (.flight (f.reload (g 3 1) (g 8 8) row))
    else none
  | some (.rowOp sf op) => (recoded op.ins (g 8 8)).map fun i => .rowOp sf { op with ins := i, a := w 16, b := w 24, c := w 32 }
  | some (.mxOp op) => (recoded op.ins (g 8 8)).map fun i => .mxOp { op with ins := i, a := w 16, b := w 24, c := w 32, f := w 40 }
  | some (.mxRun x) => (recoded x.op.ins (g 8 8)).map fun i => .mxRun { x with left := g 4 2, op := { x.op with ins := i } }
  | some (.atom op) => (recoded op.ins (g 8 8)).map fun i =>
      if g 4 2 = 1 then .atom { op with ins := i, phase := .performed, val := w 16, b := w 24 }
      else .atom { op with ins := i, phase := .queued, a := w 16 + atomOff i, b := w 24 }
  | some (.tmOp op) => (recoded op.ins (g 8 8)).map fun i => .tmOp { op with ins := i, a := w 16, b := w 24, c := w 32 }
  | some (.fence op) => some (.fence op)
  | none => newEntry s c o id

/-- The frozen entry that an entry of the list stands for: the first of its key, or, of an operation whose slot encoding has
been edited, the first of its KIND and UNIT. -/
def standsFor (s : State) (c o : Nat) (pool : List Entry) : Option Entry :=
  let g := fun k m => readNat s (.core c) (o + k) m
  let key := if g 0 1 ≤ 1 then (g 0 1, g 1 1, g 2 1, g 4 2) else (g 0 1, g 1 1, g 8 8, 0)
  (pool.find? fun e => e.key == key).orElse fun _ =>
    if g 0 1 ≤ 1 then none else pool.find? fun e => e.key.1 == g 0 1 && e.key.2.1 == g 1 1

/-- Offset of the entry after the one at `o` (R389). -/
def entryNext (s : State) (c o : Nat) : Nat := o + 32 + (readNat s (.core c) (o + 6) 2 + 31) / 32 * 32

/-- How many entries the in-flight list holds (R387). -/
def listCount (s : State) (c : Nat) : Nat := readNat s (.core c) (saveArea + 0x16) 2 % 2 ^ 14

/-- The offsets of the next `n` entries of the list. -/
def listOffsets (s : State) (c o : Nat) : Nat → List Nat
  | 0 => []
  | n + 1 => o :: listOffsets s c (entryNext s c o) n

/-- Walk the in-flight list: the entries left to read, the offset of the next, and the frozen entries not yet met (R390). Entries that
stand for none of those take numbers after all others. -/
def reinject (s : State) (c : Nat) : Nat → Nat → List Entry → List Entry
  | 0, _, _ => []
  | n + 1, o, pool =>
    let e := standsFor s c o pool
    let pool := match e with
      | some e => pool.erase e
      | none => pool
    (readEntry s c o (s.nextId + (listCount s c - (n + 1))) e).toList ++ reinject s c n (entryNext s c o) pool

/-- Results land in list order where they land in one cycle: their numbers rise along the list (R390). -/
def renumber : List Entry → List Nat → List Entry
  | .flight f :: r, n :: l => .flight { f with id := n } :: renumber r l
  | e :: r, l => e :: renumber r l
  | [], _ => []

def insertNat (n : Nat) : List Nat → List Nat
  | [] => [n]
  | m :: r => if n < m then n :: m :: r else m :: insertNat n r

def inListOrder (es : List Entry) : List Entry :=
  let ids := (es.filterMap fun e => match e with | .flight f => some f.id | _ => none).foldl (fun a n => insertNat n a) []
  renumber es ids

/-- Split the row operations of a unit again into the one in progress and those queued. -/
def RowUnit.ofOps (cur : Option RowOp) : List RowOp → RowUnit
  | [] => RowUnit.idle
  | o :: r => if cur.map (·.id) = some o.id then ⟨some o, r⟩ else ⟨none, o :: r⟩

/-- Release what discarded mx operations held: claims go without popping (R390). -/
def Ctx.forgetClaims (x : Ctx) (ids : List Nat) : Ctx :=
  { x with bob := x.bob.map fun b => ids.foldl (fun b i => b.forget i) b }

/-- The engine operation of an entry. -/
def Entry.op : Entry → Option Op
  | .mxOp o => some o
  | .mxRun r => some r.op
  | .atom o => some o
  | .fence o => some o
  | .tmOp o => some o
  | _ => none

/-- Put the entries of an in-flight list back into a core in place of those the trap froze (R390). An operation that is no longer
listed is discarded: its claims go without popping, and it leaves the outstanding-copy count; one that the handler has added joins it. -/
def Core.putBack (x : Core) (old es : List Entry) : Core :=
  let rows := fun b => es.filterMap fun e => match e with | .rowOp sf o => if sf = b then some o else none | _ => none
  let atoms := es.filterMap fun e => match e with | .atom o => some o | _ => none
  let ops := es.filterMap Entry.op
  let gone := (old.filterMap Entry.op).filter fun o => !(ops.any fun p => p.id == o.id)
  let lost := fun (o : Op) => gone.any fun p => p.id == o.id
  let added := ops.filter fun o => !((old.filterMap Entry.op).any fun p => p.id == o.id)
  { x with
    ctx := { (x.ctx.forgetClaims (gone.map (·.id))) with
             flights := es.filterMap fun e => match e with | .flight f => some f | _ => none
             va := RowUnit.ofOps x.frozenVa.cur (rows false), sf := RowUnit.ofOps x.frozenSf.cur (rows true), nops := x.frozenNops }
    mxq := es.filterMap fun e => match e with | .mxOp o => some o | _ => none
    mx := (es.filterMap fun e => match e with | .mxRun r => some r | _ => none).head?
    fences := (es.filterMap fun e => match e with | .fence o => some o | _ => none) ++ x.fences.filter (·.smode)
    tm := es.filterMap fun e => match e with | .tmOp o => some o | _ => none
    ag := ((x.ag.filter fun o => !lost o).map fun o => (atoms.find? fun a => a.id == o.id).getD o) ++ added.filter fun o => isAtom o.ins
    outst := x.outst - (gone.filter fun o => countsOutstanding o.ins).length + (added.filter fun o => countsOutstanding o.ins).length
    frozen := [], frozenVa := RowUnit.idle, frozenSf := RowUnit.idle, frozenNops := 0 }

/-- What of an entry outlives the end of its step (R364, R390): a result; a pending ATOM, which completes at its home and
whose value is discarded. -/
def Entry.cut : Entry → Option Entry
  | .flight f => some (.flight f)
  | .atom o => some (.atom { o with mute := true })
  | _ => none

/-- The step ends as failed with these entries in flight (R364, R390): results and ATOMs stay, everything else is discarded,
and no further bundle issues. -/
def Core.cutStep (x : Core) (old es : List Entry) : Core :=
  let x := x.putBack old (es.filterMap Entry.cut)
  { x with yielding := none, ctx := { x.ctx with seq := { x.ctx.seq with halt := true }, nops := 0 } }

/-- ERET's return (R390): the frame and the in-flight list are read back and U mode resumes; with STEPST.FAIL the step is
ended, with what had already issued landing during the drain (R364). -/
def returnFromTrap (s : State) (c : Nat) : State :=
  let x := s.core c
  let y := loadFrame s c x.ctx
  let es := inListOrder (reinject s c (listCount s c) listStart x.frozenEntries)
  let tsb := BitVec.ofNat 512 (readNat s (.core c) 0x1FFFC0 64)
  let y := if y.seq.pdly = 0 then y else { y with seq := { y.seq with pops := x.frozenPops } }
  let x' := { x with ctx := y, mode := .u, hold := none, committing := false, landed := [], eretReq := false, frozenPops := 0,
                     yielding := x.frozenYield, frozenYield := none, trace := x.trace.load tsb }
  let x' := if x.stepst.getLsbD 63 then x'.cutStep x.frozenEntries es else x'.putBack x.frozenEntries es
  { (s.setCore c x') with nextId := s.nextId + listCount s c }

end Sys2Proof.Machine
end

