-- ==== Sys2Proof/Machine/Ports.lean ====
section
/-! DEFINITION. Machine/Ports.lean: the unit, guard, sources and destinations of every slot instruction, implicit ones
included (R26, R36, R41 to R43), and which of them write their unit's bypass register with a fixed-latency result (R42). -/

namespace Sys2Proof.Machine

/-- How a slot instruction meets the checks of R41 to R43. -/
structure SlotInfo where
  pos  : Nat
  unit : Unit'
  g    : Guard
  /-- sources: A, B, C, F and the implicit ones -/
  srcs : List Port
  /-- destinations: D and the implicit ones -/
  dsts : List Port
  /-- is the bypass register written by a fixed-latency result? -/
  byp  : Bool
deriving DecidableEq, Repr

/-- The norm that goes with a direction (R169). -/
def normOf : Port → Port
  | .d j => .nrm j
  | p => p
/-- The direction that goes with a norm (R169). -/
def dirOf : Port → Port
  | .nrm j => .d j
  | p => p

/-- The ports of a slot instruction; none for an event. -/
def slotInfo : Instr → Option SlotInfo
  | .add u g _ d a b => some ⟨u.pos, u.unit, g, [a, b], [d], true⟩
  | .addi u g d a _ => some ⟨u.pos, u.unit, g, [a], [d], true⟩
  | .sub u g _ d a b => some ⟨u.pos, u.unit, g, [a, b], [d], true⟩
  | .mul u g _ d a b => some ⟨u.pos, u.unit, g, [a, b], [d], true⟩
  | .mulh u g _ d a b => some ⟨u.pos, u.unit, g, [a, b], [d], true⟩
  | .mulhu u g _ d a b => some ⟨u.pos, u.unit, g, [a, b], [d], true⟩
  | .div u g _ d a b => some ⟨u.pos, u.unit, g, [a, b], [d], true⟩
  | .divu u g _ d a b => some ⟨u.pos, u.unit, g, [a, b], [d], true⟩
  | .rem u g _ d a b => some ⟨u.pos, u.unit, g, [a, b], [d], true⟩
  | .remu u g _ d a b => some ⟨u.pos, u.unit, g, [a, b], [d], true⟩
  | .and u g _ d a b => some ⟨u.pos, u.unit, g, [a, b], [d], true⟩
  | .andn u g _ d a b => some ⟨u.pos, u.unit, g, [a, b], [d], true⟩
  | .or u g _ d a b => some ⟨u.pos, u.unit, g, [a, b], [d], true⟩
  | .xor u g _ d a b => some ⟨u.pos, u.unit, g, [a, b], [d], true⟩
  | .shl u g _ d a b => some ⟨u.pos, u.unit, g, [a, b], [d], true⟩
  | .shr u g _ d a b => some ⟨u.pos, u.unit, g, [a, b], [d], true⟩
  | .sar u g _ d a b => some ⟨u.pos, u.unit, g, [a, b], [d], true⟩
  | .rol u g _ d a b => some ⟨u.pos, u.unit, g, [a, b], [d], true⟩
  | .min u g _ d a b => some ⟨u.pos, u.unit, g, [a, b], [d], true⟩
  | .max u g _ d a b => some ⟨u.pos, u.unit, g, [a, b], [d], true⟩
  | .minu u g _ d a b => some ⟨u.pos, u.unit, g, [a, b], [d], true⟩
  | .maxu u g _ d a b => some ⟨u.pos, u.unit, g, [a, b], [d], true⟩
  | .clz u g _ d a => some ⟨u.pos, u.unit, g, [a], [d], true⟩
  | .ctz u g _ d a => some ⟨u.pos, u.unit, g, [a], [d], true⟩
  | .popc u g _ d a => some ⟨u.pos, u.unit, g, [a], [d], true⟩
  | .brev u g _ d a => some ⟨u.pos, u.unit, g, [a], [d], true⟩
  | .mov u g _ d a => some ⟨u.pos, u.unit, g, [a], [d], true⟩
  | .ext u g _ d a _ _ _ => some ⟨u.pos, u.unit, g, [a], [d], true⟩
  | .ins u g _ d a b _ _ => some ⟨u.pos, u.unit, g, [a, b], [d], true⟩
  | .sel u g _ d a b c => some ⟨u.pos, u.unit, g, [a, b, c], [d], true⟩
  | .cmp u g _ d a b _ => some ⟨u.pos, u.unit, g, [a, b], [d], true⟩
  | .li u g d _ => some ⟨u.pos, u.unit, g, [], [d], true⟩
  | .lih u g d _ => some ⟨u.pos, u.unit, g, [d], [d], true⟩
  | .pset u g d a => some ⟨u.pos, u.unit, g, [a], [d], false⟩
  | .plog u g d a b _ => some ⟨u.pos, u.unit, g, [a, b], [d], false⟩
  | .fadd u g _ d a b _ _ => some ⟨u.pos, u.unit, g, [a, b], [d], true⟩
  | .fsub u g _ d a b _ _ => some ⟨u.pos, u.unit, g, [a, b], [d], true⟩
  | .fmul u g _ d a b _ _ => some ⟨u.pos, u.unit, g, [a, b], [d], true⟩
  | .ffma u g _ d a b c _ _ => some ⟨u.pos, u.unit, g, [a, b, c], [d], true⟩
  | .fdiv u g _ d a b _ _ => some ⟨u.pos, u.unit, g, [a, b], [d], true⟩
  | .fsqrt u g _ d a _ _ => some ⟨u.pos, u.unit, g, [a], [d], true⟩
  | .fmin u g _ d a b _ => some ⟨u.pos, u.unit, g, [a, b], [d], true⟩
  | .fmax u g _ d a b _ => some ⟨u.pos, u.unit, g, [a, b], [d], true⟩
  | .fcmp u g _ d a b _ _ => some ⟨u.pos, u.unit, g, [a, b], [d], true⟩
  | .fcvt u g _ d a _ _ _ => some ⟨u.pos, u.unit, g, [a], [d], true⟩
  | .hget u g _ d a _ => some ⟨u.pos, u.unit, g, [a], [d], true⟩
  | .hset u g d a b _ => some ⟨u.pos, u.unit, g, [a, b], [d], false⟩
  | .hadv u g d a b _ => some ⟨u.pos, u.unit, g, [a, b], [d], false⟩
  | .lds g _ d a c _ _ _ => some ⟨2, .ag, g, [a, c], [d], true⟩
  | .sts g a b c _ _ => some ⟨2, .ag, g, [a, b, c], [], false⟩
  | .tld g d a b c => some ⟨2, .ag, g, [a, b], [d, c], false⟩
  | .tst g d a b c => some ⟨2, .ag, g, [a, b, c], [d], false⟩
  | .tldg g d a b c => some ⟨2, .ag, g, [a, b], [d, c], false⟩
  | .tsts g d a b c => some ⟨2, .ag, g, [a, b, c], [d], false⟩
  | .atomAdd g _ d a b _ _ _ _ => some ⟨2, .ag, g, [a, b], [d], false⟩
  | .atomInc g _ d a b _ _ _ _ => some ⟨2, .ag, g, [a, b], [d], false⟩
  | .atomDec g _ d a b _ _ _ _ => some ⟨2, .ag, g, [a, b], [d], false⟩
  | .atomMin g _ d a b _ _ _ _ _ => some ⟨2, .ag, g, [a, b], [d], false⟩
  | .atomMax g _ d a b _ _ _ _ _ => some ⟨2, .ag, g, [a, b], [d], false⟩
  | .atomAnd g _ d a b _ _ _ _ => some ⟨2, .ag, g, [a, b], [d], false⟩
  | .atomOr g _ d a b _ _ _ _ => some ⟨2, .ag, g, [a, b], [d], false⟩
  | .atomXor g _ d a b _ _ _ _ => some ⟨2, .ag, g, [a, b], [d], false⟩
  | .atomXchg g _ d a b _ _ _ _ => some ⟨2, .ag, g, [a, b], [d], false⟩
  | .atomCas g _ d a b c _ _ _ _ => some ⟨2, .ag, g, [a, b, c], [d], false⟩
  | .fence g _ => some ⟨2, .ag, g, [], [], false⟩
  | .bset g d a b => some ⟨2, .ag, g, [a, b], [d], false⟩
  | .bpush g d a => some ⟨2, .ag, g, [a], [d], false⟩
  | .bpop g d a => some ⟨2, .ag, g, [a], [d], false⟩
  | .bqry g _ d a _ => some ⟨2, .ag, g, [a], [d], true⟩
  | .vadd g d a b _ _ _ => some ⟨3, .va, g, [a, b], [d], false⟩
  | .vsub g d a b _ _ _ => some ⟨3, .va, g, [a, b], [d], false⟩
  | .vmul g d a b _ _ _ => some ⟨3, .va, g, [a, b], [d], false⟩
  | .vfma g d a b c _ _ _ => some ⟨3, .va, g, [a, b, c], [d], false⟩
  | .vmin g d a b _ _ => some ⟨3, .va, g, [a, b], [d], false⟩
  | .vmax g d a b _ _ => some ⟨3, .va, g, [a, b], [d], false⟩
  | .vabs g d a _ _ => some ⟨3, .va, g, [a], [d], false⟩
  | .vneg g d a _ _ => some ⟨3, .va, g, [a], [d], false⟩
  | .vcmp g d a b _ _ _ => some ⟨3, .va, g, [a, b], [d], true⟩
  | .vsel g d a b c _ _ => some ⟨3, .va, g, [a, b, c], [d], false⟩
  | .vand g d a b _ _ => some ⟨3, .va, g, [a, b], [d], false⟩
  | .vor g d a b _ _ => some ⟨3, .va, g, [a, b], [d], false⟩
  | .vxor g d a b _ _ => some ⟨3, .va, g, [a, b], [d], false⟩
  | .vshl g d a b _ _ => some ⟨3, .va, g, [a, b], [d], false⟩
  | .vshr g d a b _ _ _ => some ⟨3, .va, g, [a, b], [d], false⟩
  | .vcvt g d a b _ _ _ _ => some ⟨3, .va, g, [a, b], [d], false⟩
  | .vqnt g d a b _ _ _ _ => some ⟨3, .va, g, [a, b], [d], false⟩
  | .vdq g d a b c _ _ _ _ => some ⟨3, .va, g, [a, b, c], [d], false⟩
  | .vaddp8 g d a b _ _ _ => some ⟨3, .va, g, [a, b], [d], false⟩
  | .vmulp8 g d a b _ _ _ => some ⟨3, .va, g, [a, b], [d], false⟩
  | .vbcast g d a _ _ _ => some ⟨3, .va, g, [a], [d], false⟩
  | .vrow g d a _ _ _ => some ⟨3, .va, g, [a], [d], false⟩
  | .vrowRel g d => some ⟨3, .va, g, [], [d], false⟩
  | .vperm g d a b _ _ => some ⟨3, .va, g, [a, b], [d], false⟩
  | .vsum g _ d a _ _ _ => some ⟨3, .va, g, [a], [d], true⟩
  | .vmaxr g _ d a _ _ _ => some ⟨3, .va, g, [a], [d], true⟩
  | .vmred g d a b _ _ _ _ => some ⟨3, .va, g, [a, b], [d], true⟩
  | .vmscan g d a b _ _ _ _ => some ⟨3, .va, g, [a, b], [d], true⟩
  | .vband g d a b _ _ => some ⟨3, .va, g, [a, b], [d], true⟩
  | .vpopc g d a _ _ => some ⟨3, .va, g, [a], [d], true⟩
  | .vpfx g d a b _ _ => some ⟨3, .va, g, [a, b], [d], true⟩
  | .visect g _ d a b c _ _ => some ⟨3, .va, g, [a, b, c], [d], true⟩
  | .vlsem g d a b _ _ => some ⟨3, .va, g, [a, b], [d], false⟩
  | .exp2 g d a _ _ => some ⟨4, .sf, g, [a], [d], false⟩
  | .log2 g d a _ _ => some ⟨4, .sf, g, [a], [d], false⟩
  | .rcp g d a _ _ _ => some ⟨4, .sf, g, [a], [d], false⟩
  | .rsqrt g d a _ _ _ => some ⟨4, .sf, g, [a], [d], false⟩
  | .sqrt g d a _ _ _ => some ⟨4, .sf, g, [a], [d], false⟩
  | .sin g d a _ _ => some ⟨4, .sf, g, [a], [d], false⟩
  | .cos g d a _ _ => some ⟨4, .sf, g, [a], [d], false⟩
  | .tanh g d a _ _ => some ⟨4, .sf, g, [a], [d], false⟩
  | .dfrom g d a _ => some ⟨4, .dv, g, [a], [d, normOf d], false⟩
  | .dto g d a _ _ _ => some ⟨4, .dv, g, [a, normOf a], [d], false⟩
  | .dcos g _ d a b => some ⟨4, .dv, g, [a, b], [d], true⟩
  | .ddotw g _ d a b => some ⟨4, .dv, g, [a, b, normOf a, normOf b], [d], true⟩
  | .dscl g d a b => some ⟨4, .dv, g, [a, b, normOf a], [d, normOf d], false⟩
  | .dadd g d a b => some ⟨4, .dv, g, [a, b, normOf a, normOf b], [d, normOf d], false⟩
  | .dsub g d a b => some ⟨4, .dv, g, [a, b, normOf a, normOf b], [d, normOf d], false⟩
  | .dlerp g d a b c => some ⟨4, .dv, g, [a, b, c, normOf a, normOf b], [d, normOf d], false⟩
  | .dneg g d a => some ⟨4, .dv, g, [a, normOf a], [d, normOf d], false⟩
  | .dcmp g _ d a b c _ _ _ _ => some ⟨4, .dv, g, [a, b, c], [d], true⟩
  | .dnget g _ d a => some ⟨4, .dv, g, [a], [d], true⟩
  | .dnset g d a => some ⟨4, .dv, g, [a, dirOf d, d], [d, dirOf d], false⟩
  | .dsplit g d a b => some ⟨4, .dv, g, [a, b, normOf a], [d, normOf d], false⟩
  | .djoin g _ d a b => some ⟨4, .dv, g, [a, b], [d], true⟩
  | .mzero g d _ => some ⟨5, .mx, g, [], [d], false⟩
  | .mload g d a _ => some ⟨5, .mx, g, [a], [d], false⟩
  | .mma g d a b c f _ _ _ => some ⟨5, .mx, g, [a, b, c, f], [d], false⟩
  | .mmat g d a b c f _ _ _ => some ⟨5, .mx, g, [a, b, c, f], [d], false⟩
  | .mmask g a b => some ⟨5, .mx, g, [a, b], [], false⟩
  | .mdrain g d a b _ => some ⟨5, .mx, g, [a, b], [d], false⟩
  | .mstep g d a b c _ => some ⟨5, .mx, g, [a, b, c], [d], false⟩
  | .mstash g d a b c => some ⟨5, .mx, g, [a, b, c], [d], false⟩
  | .munst g d a b c => some ⟨5, .mx, g, [a, b, c], [d], false⟩
  | .mfmt g d a b _ _ => some ⟨5, .mx, g, [a, b], [d], false⟩
  | .mqry g _ d a sl => some ⟨5, .mx, g, if sl == 0#3 then [a] else [], [d], true⟩
  | .msync g => some ⟨5, .mx, g, [], [], false⟩
  | .tmv g d a b => some ⟨6, .ce, g, [a, b], [d], false⟩
  | .cpy g d a b c _ => some ⟨6, .ce, g, [a, b, c], [d], false⟩
  | .cpyl g d a b _ _ _ => some ⟨6, .ce, g, [a, b], [d], false⟩
  | .cpyq g _ d _ => some ⟨6, .ce, g, [], [d], true⟩
  | .hqpush g d a b => some ⟨6, .ce, g, [a, b], [d], false⟩
  | .hqpop g d a b => some ⟨6, .ce, g, [a, b], [d], false⟩
  | .rcmp g d a b c sh sth _ _ => some ⟨6, .tm, g, [a, b, c] ++ (if sth then [.h (Fin.ofNat 32 sh.toNat)] else []), [d], false⟩
  | .rrst g d a b c _ => some ⟨6, .tm, g, [a, b, c], [d], false⟩
  | .rpred g d a b c _ _ _ => some ⟨6, .tm, g, [a, b, c], [d], false⟩
  | .rset g d a b c _ => some ⟨6, .tm, g, [a, b, c], [d], false⟩
  | .rsetCfg g a => some ⟨6, .tm, g, [a], [], false⟩
  | .rcnt g _ d a b sl => some ⟨6, .tm, g, if sl == 2#2 then [a] else [a, b], [d], false⟩
  | .kvapp g d a b _ => some ⟨6, .tm, g, [a, b], [d], false⟩
  | .kvappGap g d a b c _ => some ⟨6, .tm, g, [a, b, c], [d], false⟩
  | .kvcomAcc g d a b _ => some ⟨6, .tm, g, [a, b], [d], false⟩
  | .kvcomSet g d a b _ => some ⟨6, .tm, g, [a, b], [d], false⟩
  | .kvtent g _ d a _ => some ⟨6, .tm, g, [a], [d], false⟩
  | .kvroll g d a _ => some ⟨6, .tm, g, [a], [d], false⟩
  | .kvrscl g d a b _ => some ⟨6, .tm, g, [a, b], [d], false⟩
  | .kvfill g d a b c _ => some ⟨6, .tm, g, [a, b, c], [d], false⟩
  | .attn g d a b c _ => some ⟨6, .tm, g, [a, b, c], [d], false⟩
  | .shsend g d a b _ => some ⟨6, .tm, g, [a, b], [d], false⟩
  | .shrecv g d a _ => some ⟨6, .tm, g, [a], [d], false⟩
  | .exitn g d a b => some ⟨6, .tm, g, [a, b], [d], false⟩
  | .ovl g d a b _ _ _ => some ⟨6, .ce, g, [a, b], [d], false⟩
  | .opbpostArm g d a b cnt => some ⟨6, .tm, g, if cnt then [a, b] else [a], [d], false⟩
  | .opbpostDec g d a b => some ⟨6, .tm, g, [a, b], [d], false⟩
  | .br g _ => some ⟨7, .br, g, [], [], false⟩
  | .brc g a _ _ => some ⟨7, .br, g, [a], [], false⟩
  | .call g d _ => some ⟨7, .br, g, [], [d], false⟩
  | .ret g a => some ⟨7, .br, g, [a], [], false⟩
  | .jr g d a => some ⟨7, .br, g, [a], [d], false⟩
  | .loop g a _ => some ⟨7, .br, g, [a], [], false⟩
  | .loopl g _ => some ⟨7, .br, g, [.byp 7], [], false⟩
  | .loopx g _ => some ⟨7, .br, g, [], [], false⟩
  | .fin g => some ⟨7, .br, g, [], [], false⟩
  | .await g _ d a b _ => some ⟨7, .sy, g, [a, b], [d], true⟩
  | .post g d a b c _ rmt => some ⟨7, .sy, g, if rmt then [a, b, c] else [a], [d], false⟩
  | .syncd g _ d _ => some ⟨7, .sy, g, [], [d], true⟩
  | .yieldc g _ d a => some ⟨7, .sy, g, [a], [d], true⟩
  | .waitq g _ d a => some ⟨7, .sy, g, [a], [d], true⟩
  | .flushy g _ d => some ⟨7, .sy, g, [], [d], true⟩
  | .mark g _ _ => some ⟨7, .sy, g, [], [], false⟩
  | .ckpt g _ d => some ⟨7, .sy, g, [], [d], true⟩
  | .trap g _ => some ⟨7, .br, g, [], [], false⟩
  | .bkpt g _ => some ⟨7, .br, g, [], [], false⟩
  | .nop g _ => some ⟨7, .br, g, [], [], false⟩
  | .sysrd g _ d a => some ⟨7, .sy, g, [a], [d], true⟩
  | .syswr g d a => some ⟨7, .sy, g, [a], [d], false⟩
  | .eret g => some ⟨7, .br, g, [], [], false⟩
  | .setdmr g _ d a rd => some ⟨7, .sy, g, if rd then [] else [a], [d], true⟩
  | .resultLanding _ => none
  | .ephemeralExpiry _ _ => none
  | .bankRefresh _ => none
  | .groupWaitEnd _ => none
  | .vectorRowStart _ _ => none
  | .vectorRowLanding _ => none
  | .pairNormLanding _ => none
  | .pairDirectionLanding _ => none
  | .mxOperationStart _ => none
  | .mxOperationRetire _ => none
  | .mstepStepEnd _ => none
  | .munstRowsLand _ => none
  | .mstashWritesComplete _ => none
  | .fillSlotLanded _ _ _ => none
  | .transferStart _ _ => none
  | .transferComplete _ _ => none
  | .storeSlotPop _ _ => none
  | .copyCommandTake _ => none
  | .engineWaitEnd _ => none
  | .copyItemComplete _ => none
  | .incrementArrival _ => none
  | .pibwinRead _ => none
  | .kwinWrite _ _ => none
  | .ksatWrite _ _ => none
  | .atomPerform _ => none
  | .atomComplete _ => none
  | .fenceComplete _ => none
  | .postSend _ => none
  | .epochMarkerApply _ _ => none
  | .rowInstructionStart _ => none
  | .rowInstructionComplete _ => none
  | .tmRequestSend _ => none
  | .cellarRequestPerform _ _ => none
  | .cellarRequestComplete _ _ => none
  | .permitGrant _ _ => none
  | .microBatchPerform _ _ => none
  | .microBatchDeliver _ _ => none
  | .shstWrite _ _ => none
  | .noticeAppend _ => none
  | .exitnAck _ => none
  | .hqEntryMove _ => none
  | .coreRelease _ => none
  | .stepstWrite _ _ => none
  | .armingPerform _ => none
  | .taskPlace _ _ _ => none
  | .stepDispatch _ _ _ => none
  | .stepStart _ => none
  | .taskDone _ _ => none
  | .taskFailed _ _ => none
  | .dieCountChange _ _ _ => none
  | .contextResume _ => none
  | .trapEntry _ => none
  | .doubleTrap _ => none
  | .breakpointFire _ _ => none
  | .preemptionLanding _ => none
  | .contextSwitchDue _ => none
  | .spill _ => none
  | .spillsp _ => none
  | .fill _ => none
  | .fillsp _ => none
  | .swout _ => none
  | .swin _ => none
  | .uncorrectableError _ _ => none
  | .atagWrite _ _ => none
  | .scycWrite _ _ => none
  | .ephstWrite _ _ => none
  | .seqstWrite _ _ => none
  | .lswinWrite _ _ => none
  | .istagWrite _ _ _ => none
  | .dsccmdWrite _ _ => none
  | .discardMarkDone _ => none
  | .reelwinWrite _ _ => none
  | .traceRecordWrite _ => none
  | .replayCheckpoint _ => none
  | .doorbellWrite _ _ _ => none
  | .commandFetch _ => none
  | .commandFetchRetry _ => none
  | .arm _ _ _ _ => none
  | .dec _ _ _ => none
  | .inval _ _ _ _ => none
  | .invalComplete _ => none
  | .dbgstop _ _ => none
  | .attest _ _ _ => none
  | .psetup _ _ _ => none
  | .ptear _ _ => none
  | .scrconsWrite _ _ => none
  | .stepRingAppend _ => none
  | .bar4Access _ _ => none
  | .moduleReset _ => none
  | .thermalThrottle _ _ => none
  | .thermalStop _ => none
  | .correctableError _ => none
  | .qcfgWrite _ _ _ => none
  | .replay _ _ => none
  | .groupDomainArrival _ _ _ _ => none
  | .noticeTargetUnreachable _ => none
  | .powerRemoval => none

/-- The guard of a slot instruction. -/
def guardOf (i : Instr) : Guard := ((slotInfo i).map (·.g)).getD Guard.always

end Sys2Proof.Machine
end

