-- ==== Sys2Proof/Machine/Operands.lean ====
section
/-! DEFINITION. Machine/Operands.lean: the operand forms of row instructions (R140, R145, R146) and of dv (R67, R68, R169),
and the lane functions the vector, special-function and directional units compute (R86, R151 to R168, R175 to R186). -/

namespace Sys2Proof.Machine

/-! ## Rows and lanes -/

/-- Element `i` of width `w` in a row. -/
def laneAt (r : Row) (w i : Nat) : Nat := (r.extractLsb' (w * i) w).toNat

/-- Pack elements of width `w`, the first lowest. -/
def packNat (w : Nat) : List Nat → Nat
  | [] => 0
  | x :: r => x % 2 ^ w + packNat w r * 2 ^ w

/-- A row from its elements; the rest of the row is zero. -/
def packRow (w : Nat) (l : List Nat) : Row := BitVec.ofNat 2048 (packNat w l)

/-- The first `n` elements of a row. -/
def lanes (r : Row) (w n : Nat) : List Nat := (upFrom 0 n).map (laneAt r w)

/-- Replace element `i` of width `w`. -/
def setLane (r : Row) (w i v : Nat) : Row := bvSet r (w * i) w v

/-- The row count of a range: NL + 1, or up to row 63 (R145). -/
def rangeEnd (rf : BitVec 6) (nl : BitVec 5) : Nat := if nl.toNat = 31 then 64 else rf.toNat + nl.toNat + 1

/-- Is this port a tile? -/
def isTile : Port → Bool
  | .tile _ => true
  | _ => false

/-- The tag of a tile port. -/
def Ctx.tagOf (x : Ctx) (p : Port) : Tag := (x.tile (tOf p)).tag

/-- The type T of a row operation (R146). -/
def Ctx.rowType (x : Ctx) (d : Port) (srcs : List Port) : Tag :=
  match srcs.find? isTile with
  | some p => x.tagOf p
  | none => x.tagOf d

/-- Row `r` of a source: a tile's row, or a scalar's low bits in every laneAt (R146). -/
def Ctx.srcRow (x : Ctx) (ty : Tag) (p : Port) (v : Word) (r : Nat) : Row :=
  if isTile p then x.row (tOf p) r else packRow ty.width (rep v.toNat ty.lanes)

/-! ## Lane functions -/

/-- What a lane gives: its bits and the flags it raises. -/
abbrev LaneOut := Nat × FlagSet

def joinFlags (l : List LaneOut) : FlagSet := l.foldl (fun f x => f ||| x.2) 0#8

/-- A row computed lane by lane. -/
def mapLanes (ty : Tag) (f : Nat → LaneOut) : Row × FlagSet :=
  let l := (upFrom 0 ty.lanes).map f
  (packRow ty.width (l.map (·.1)), joinFlags l)

/-- Signed value of a 32-bit lane. -/
def s32 (x : Nat) : Int := sextNat 32 x

/-- One arithmetic lane of type `ty` (R146, R151): integers modulo 2^32, floating lanes rounded once. -/
def laneArith (ty : Tag) (rm : Rnd) (int : Nat → Nat → Nat → Nat) (fp : FV → FV → FV → FV) (a b c : Nat) : LaneOut :=
  if ty = .int32 then (int a b c % 2 ^ 32, 0#8)
  else roundF ty.fmt rm false (fp (unpack ty.fmt a) (unpack ty.fmt b) (unpack ty.fmt c))

/-- VMIN and VMAX (R151). -/
def laneMinMax (ty : Tag) (isMax : Bool) (a b : Nat) : LaneOut :=
  if ty = .int32 then ((if decide (s32 a ≤ s32 b) != isMax then a else b), 0#8) else fminmax ty.fmt isMax a b

/-- VABS and VNEG (R151). -/
def laneAbs (ty : Tag) (a : Nat) : LaneOut :=
  if ty = .int32 then (wrap 32 (if s32 a < 0 then -s32 a else s32 a), 0#8)
  else
    let v := unpack ty.fmt a
    if v.isNaN then (canonNaN ty.fmt, flagIf v.invalid fIV) else (a % signBit ty.fmt, 0#8)
def laneNeg (ty : Tag) (a : Nat) : LaneOut :=
  if ty = .int32 then (wrap 32 (-s32 a), 0#8)
  else
    let v := unpack ty.fmt a
    if v.isNaN then (canonNaN ty.fmt, flagIf v.invalid fIV) else (a ^^^ signBit ty.fmt, 0#8)

/-- VCMP's conditions (R152): FCMP's on floating lanes, signed and unsigned comparisons on integers. -/
def laneCmp (ty : Tag) (c : VCond) (a b : Nat) : Bool × FlagSet :=
  if ty = .int32 then
    (match c with
      | .eq => a == b | .ne => a != b | .lt => decide (s32 a < s32 b) | .le => decide (s32 a ≤ s32 b)
      | .gt => decide (s32 b < s32 a) | .ge => decide (s32 b ≤ s32 a) | .ltu => decide (a < b) | .leu => decide (a ≤ b)
      | .gtu => decide (b < a) | .geu => decide (b ≤ a) | .un => false | .ord => false, 0#8)
  else
    let x := unpack ty.fmt a
    let y := unpack ty.fmt b
    match c with
    | .eq => fcmpHolds .eq x y | .ne => fcmpHolds .ne x y | .lt => fcmpHolds .lt x y | .le => fcmpHolds .le x y
    | .gt => fcmpHolds .gt x y | .ge => fcmpHolds .ge x y | .un => fcmpHolds .un x y | .ord => fcmpHolds .ord x y
    | _ => (false, 0#8)

/-- A mask of booleans, the first at bit 0. -/
def maskOf : List Bool → Nat
  | [] => 0
  | b :: r => (if b then 1 else 0) + 2 * maskOf r

/-- The value of a tag's lane as an exact value; INT32 is signed (R153). -/
def Tag.valueOf (ty : Tag) (a : Nat) : FV := if ty = .int32 then FV.ofInt (s32 a) 0 else unpack ty.fmt a

/-! ## Conversions (R153 to R157) -/

/-- The tag VCVT gives its destination and the elements per row (R153). -/
def cvtTag : Fmt → Tag
  | .f32 => .fp32 | .f64 => .fp64 | .bf16 => .bf16 | _ => .int32

/-- One row of VCVT (R153): the first bit and the number of bits it writes, and the row that holds the converted elements
there; `sr` rounding uses the seed and counter. -/
def cvtRow (src : Tag) (fmt : Fmt) (rm : Rnd) (sat8 : Bool) (seed ctr : Word) (q : Nat) (a : Row) : Nat × Nat × Row × FlagSet :=
  let w := fmtWidth fmt
  let nd := 2048 / w
  let ns := src.lanes
  let one := fun (i k : Nat) =>
    let v := src.valueOf (laneAt a src.width k)
    if rm = .sr then srRound fmt sat8 seed ctr i v else roundMode fmt rm sat8 v
  if nd ≥ ns then
    let base := q % (nd / ns) * ns
    let out := (upFrom 0 ns).map fun i => one i i
    (w * base, w * ns, (packRow w (out.map (·.1))) <<< (w * base), joinFlags out)
  else
    let base := q % (ns / nd) * nd
    let out := (upFrom 0 nd).map fun i => one i (base + i)
    (0, 2048, packRow w (out.map (·.1)), joinFlags out)

/-- Group size of a GRP code (R154, R188). -/
def grpSize : Nat → Nat
  | 1 => 32 | 2 => 64 | 3 => 128 | _ => 0

/-- The parameter lane of element `i` of range row `k` (R154): scale and zero point of its group. -/
def Ctx.param (x : Ctx) (b : Port) (rf g k i : Nat) : FV × Int :=
  let n := (64 * k + i) / g
  let p := laneAt (x.row (tOf b) (rf + n / 64)) 32 (n % 64)
  (unpack .f16 (p % 2 ^ 16), sextNat 8 (p / 2 ^ 16))

/-- Rounding to an integer of unbounded range, then the clamp of VQNT (R155). -/
def qntLane (rm : Rnd) (w : Nat) (x s : FV) (z : Int) : LaneOut :=
  let hi : Int := 2 ^ (w - 1) - 1
  let lo : Int := -(2 ^ (w - 1))
  if s.isZero || s.isNaN || s.isInf || x.isNaN then (wrap w z, fIV)
  else
    match (FV.div x s).1 with
    | .inf n => (wrap w (if n then lo else hi), fNX ||| fIV)
    | .fin n m e =>
      let (r, inexact) := roundInt rm n m e
      let t := r + z
      let y := if t < lo then lo else if t > hi then hi else t
      (wrap w y, flagIf (inexact || y != t) fNX)
    | .nan _ => (wrap w z, fIV)

/-- The value of a code element before VDQ's scaling (R156): `i` is the element. An integer 0, of a code or of a difference from its zero
point, is taken as +0, so that its product with a negative scale is −0: DESIGN CHOICE (notes/assumptions/95.md). -/
def dqValue (fmt : Fmt) (fz : Bool) (a : Row) (i : Nat) (s : FV) (z : Int) : FV :=
  match fmt with
  | .f32 => unpack .f32 (laneAt a 32 i)
  | .g8 => FV.mul s (FV.ofInt (sextNat 8 (laneAt a 8 i) - z) 0)
  | .g4 => FV.mul s (FV.ofInt (sextNat 4 (laneAt a 4 i) - z) 0)
  | .i8 => FV.ofInt (sextNat 8 (laneAt a 8 i)) 0
  | .i4 => FV.ofInt (sextNat 4 (laneAt a 4 i)) 0
  | f => unpackFz fz f (laneAt a 8 i)

/-- A packed FP8 laneAt (R86). -/
def fp8Lane (fmt : Fmt) (isMul sat8 fz : Bool) (a b : Nat) : LaneOut :=
  let out := (upFrom 0 4).map fun j =>
    let x := unpackFz fz fmt (field a (8 * j) 8)
    let y := unpackFz fz fmt (field b (8 * j) 8)
    roundF fmt .rne sat8 (if isMul then FV.mul x y else FV.add .rne x y)
  (packNat 8 (out.map (·.1)), joinFlags out)

/-! ## Reductions (R161, R162) -/

/-- The maximum of lanes under FMAX's rules, with the lane that holds it (R161). -/
def maxGo (ty : Tag) : List Nat → Nat → Nat → Nat → Nat × Nat
  | [], _, best, at' => (best, at')
  | a :: r, i, best, at' =>
    let bigger := if ty = .int32 then decide (s32 best < s32 a) else FV.cmpZ (unpack ty.fmt best) (unpack ty.fmt a) == .lt
    if bigger then maxGo ty r (i + 1) a i else maxGo ty r (i + 1) best at'

/-- A row's maximum, its index and flags (R161). -/
def rowMax (ty : Tag) (l : List Nat) : Nat × Nat × FlagSet :=
  let nan := fun a => ty != .int32 && (unpack ty.fmt a).isNaN
  match l.findIdx? nan with
  | some i => (canonNaN ty.fmt, i, flagIf (l.any fun a => (unpack ty.fmt a).invalid) fIV)
  | none =>
    match l with
    | [] => (0, 0, 0#8)
    | a :: r => let (m, i) := maxGo ty r 1 a 0; (m, i, 0#8)

/-- A row's sum (R161). -/
def rowSum (ty : Tag) (rm : Rnd) (l : List Nat) : LaneOut :=
  if ty = .int32 then (l.foldl (· + ·) 0 % 2 ^ 32, 0#8) else roundF ty.fmt rm false (exactSum (l.map (unpack ty.fmt)))

/-- One combining step of VMRED and VMSCAN (R162). -/
def redStep (ty : Tag) (op : RedOp) (rm : Rnd) (a b : Nat) : LaneOut :=
  match op with
  | .add => laneArith ty rm (fun a b _ => a + b) (fun a b _ => FV.add rm a b) a b 0
  | .min => laneMinMax ty false a b
  | .max => laneMinMax ty true a b

/-- Runs by key: the running values so far as (key, value), the prefix of each lane and its leader bit, and the flags (R162). -/
def redGo (ty : Tag) (op : RedOp) (rm : Rnd) : List (Nat × Nat) → Map Nat → List (Nat × Bool) → FlagSet →
    Map Nat × List (Nat × Bool) × FlagSet
  | [], runs, acc, f => (runs, acc.reverse, f)
  | (k, v) :: r, runs, acc, f =>
    match runs.find? fun e => e.1 == k with
    | some (_, run) =>
      let (y, f') := redStep ty op rm run v
      redGo ty op rm r (runs.map fun e => if e.1 = k then (k, y) else e) ((y, false) :: acc) (f ||| f')
    | none => redGo ty op rm r (runs ++ [(k, v)]) ((v, true) :: acc) f

/-- VMRED and VMSCAN on one row: the row, the leader mask, the flags (R162). -/
def redRow (scan : Bool) (ty : Tag) (op : RedOp) (rm : Rnd) (a b : Row) : Row × Nat × FlagSet :=
  let n := ty.lanes
  let keys := lanes a 32 n
  let (runs, pre, f) := redGo ty op rm (keys.zip (lanes b ty.width n)) [] [] 0#8
  let out := if scan then pre.map (·.1)
    else (keys.zip pre).map fun (k, p) => if p.2 then ((runs.find? fun e => e.1 == k).map (·.2)).getD 0 else 0
  (packRow ty.width out, maskOf (pre.map (·.2)), f)

/-! ## Bitmap operations (R163, R164) -/

/-- Exclusive prefix counts from a start, and the end (R163). -/
def pfxGo : List Nat → Nat → List Nat × Nat
  | [], run => ([], run)
  | a :: r, run =>
    let (l, e) := pfxGo r (run + popcount a 32)
    (run % 2 ^ 32 :: l, e)

/-- Value byte `o` of a tile taken as one array of 16 KiB (R164). -/
def Ctx.valByte (x : Ctx) (t o : Nat) : Int := sextNat 8 (laneAt (x.row t (o % 2 ^ 14 / 256)) 8 (o % 256))

/-- One bitmap word of VISECT: the set bits of `m` from bit `j` up (R164). -/
def isectBits (x : Ctx) (ta tb ca cb ba bb : Nat) : Nat → Nat → Int → Int
  | 0, _, acc => acc
  | n + 1, j, acc =>
    let acc := if ba.testBit j && bb.testBit j
      then acc + x.valByte ta (ca + popcount ba j) * x.valByte tb (cb + popcount bb j) else acc
    isectBits x ta tb ca cb ba bb n (j + 1) acc

/-- The lanes of one bitmap row: cursors and accumulator (R164). -/
def isectRow (x : Ctx) (ta tb r : Nat) : Nat → Nat → Nat × Nat × Int → Nat × Nat × Int
  | 0, _, st => st
  | n + 1, w, (ca, cb, acc) =>
    let ba := laneAt (x.row ta r) 32 w
    let bb := laneAt (x.row tb r) 32 w
    isectRow x ta tb r n (w + 1)
      ((ca + popcount ba 32) % 2 ^ 14, (cb + popcount bb 32) % 2 ^ 14, isectBits x ta tb ca cb ba bb 32 0 acc)

/-- VISECT's state after one more row (R164). -/
def isectStep (x : Ctx) (ta tb r : Nat) (st : Word) : Word :=
  let (ca, cb, acc) := isectRow x ta tb r 64 0 (bvField st 50 14, bvField st 36 14, (bvField st 0 32 : Int))
  BitVec.ofNat 64 (ca * 2 ^ 50 + cb * 2 ^ 36 + wrap 32 acc)

/-! ## Attention triples (R92, R165) -/

/-- A triple: maximum, sum, accumulator lanes, all binary32 encodings. -/
structure Triple where
  m : Nat
  s : Nat
  a : List Nat
deriving DecidableEq, Repr

def nan32 : Nat := 0x7FC00000
def inf32 : Nat := 0x7F800000
def ninf32 : Nat := 0xFF800000
def one32 : Nat := 0x3F800000

/-- The empty triple (R92). -/
def Triple.empty (n : Nat) : Triple := ⟨ninf32, 0, rep 0 n⟩

/-- The factor of one triple (R92). -/
def lseFactor (mj m : Nat) : LaneOut :=
  let x := unpack .f32 mj
  let y := unpack .f32 m
  if FV.cmp x y == .eq then (one32, 0#8)
  else if mj = ninf32 || m = inf32 then (0, 0#8)
  else roundF .f32 .rne false (exp2V (FV.sub .rne x y))

/-- x·f + y·g, rounded once (R92). -/
def mulAdd2 (x f y g : Nat) : LaneOut :=
  roundF .f32 .rne false (FV.add .rne (FV.mul (unpack .f32 x) (unpack .f32 f)) (FV.mul (unpack .f32 y) (unpack .f32 g)))

/-- lse2 (R92). The greater of −0 and +0 is +0, which R92 leaves open: DESIGN CHOICE (notes/assumptions/53.md). -/
def lse2 (p q : Triple) : Triple × FlagSet :=
  let x := unpack .f32 p.m
  let y := unpack .f32 q.m
  let n := p.a.length
  if x.isNaN || y.isNaN then (⟨nan32, nan32, rep nan32 n⟩, flagIf (x.invalid || y.invalid) fIV)
  else
    let m := if FV.cmpZ x y == .lt then q.m else p.m
    if m = ninf32 then (Triple.empty n, 0#8)
    else
      let (f, e1) := lseFactor p.m m
      let (g, e2) := lseFactor q.m m
      let (s, e3) := mulAdd2 p.s f q.s g
      let a := (p.a.zip q.a).map fun (u, v) => mulAdd2 u f v g
      (⟨m, s, a.map (·.1)⟩, e1 ||| e2 ||| e3 ||| joinFlags a)

/-! ## Special functions (R166 to R168) -/

/-- The distance of SIN and COS from the correctly rounded magnitude `mag`, in encodings, plus 2: a free value of the input within
2 ulp (R166), and 0 for the input whose results R168 lists. Two encodings above a mantissa of all ones would be 3 ulp. -/
def sinCosOff (isCos : Bool) (x mag : Nat) : Nat :=
  if x = 0x40490FDB then 2
  else
    let off := (if isCos then Config.cosUlp (BitVec.ofNat 32 x) else Config.sinUlp (BitVec.ofNat 32 x)) % 5
    if mag % 2 ^ 23 = 2 ^ 23 - 1 then min off 3 else off

/-- SIN and COS (R166, R168): the correctly rounded value but for that distance. -/
def sinCos (isCos : Bool) (x : Nat) : LaneOut :=
  match unpack .f32 x with
  | .nan b => (nan32, flagIf b fIV)
  | .inf _ => (nan32, fIV)
  | .fin n m e =>
    if m = 0 then (if isCos then one32 else x, 0#8)
    else if (Nat.log2 m : Int) + e ≥ 20 then (nan32, fRG ||| fIV)
    else
      let (y, f) := roundF .f32 .rne false (sincosV isCos n m e)
      ((y / 2 ^ 31) * 2 ^ 31 + (y % 2 ^ 31 + sinCosOff isCos x (y % 2 ^ 31) - 2), f ||| fNX)

/-- One special function on a binary32 encoding (R167). -/
def special (i : Instr) (x : Nat) : LaneOut :=
  let v := unpack .f32 x
  match i with
  | .exp2 .. => roundF .f32 .rne false (exp2V v)
  | .log2 .. =>
    match v with
    | .nan b => (nan32, flagIf b fIV)
    | .inf n => if n then (nan32, fIV) else (inf32, 0#8)
    | .fin n m e => if m = 0 then (ninf32, fDZ) else if n then (nan32, fIV) else roundF .f32 .rne false (log2V m e)
  | .rcp _ _ _ rm _ _ =>
    let (q, f) := FV.div (.fin false 1 0) v
    let (y, f') := roundF .f32 rm false q
    (y, f ||| f')
  | .rsqrt _ _ _ rm _ _ =>
    let (q, f) := FV.rsqrt v
    let (y, f') := roundF .f32 rm false q
    (y, f ||| f')
  | .sqrt _ _ _ rm _ _ => roundF .f32 rm false v.sqrt
  | .sin .. => sinCos false x
  | .cos .. => sinCos true x
  | .tanh .. =>
    match v with
    | .nan b => (nan32, flagIf b fIV)
    | .inf n => (if n then 0xBF800000 else one32, 0#8)
    | .fin n m e => if m = 0 then (x, 0#8) else roundF .f32 .rne false (tanhV n m e)
  | _ => (0, 0#8)

/-- A lane of an sf operation: BF16 is widened, evaluated as binary32 and rounded again (R166). -/
def specialLane (ty : Tag) (i : Instr) (a : Nat) : LaneOut :=
  if ty = .bf16 then
    let (y, f) := special i (a * 2 ^ 16)
    let (z, f') := roundF .bf16 .rne false (unpack .f32 y)
    (z, f ||| f')
  else special i a

/-! ## Directions and norms (R67, R68, R91, R175, R180 to R186) -/

/-- The 128 lanes of a direction (R67). -/
def dirLanes (d : Row) : List Int := (upFrom 0 128).map fun i => sextNat 16 (laneAt d 16 i)
def packDir (l : List Int) : Row := packRow 16 (l.map (wrap 16))

/-- A pair: direction lanes and norm encoding, with the flags of its write. -/
structure Pair where
  d : List Int
  n : Nat
  f : FlagSet
deriving DecidableEq, Repr

def zeroLanes : List Int := rep 0 128
/-- NAN_PAIR (R175) and the zero code (R170). -/
def Pair.nan (f : FlagSet) : Pair := ⟨zeroLanes, nan32, f⟩
def Pair.zero (f : FlagSet) : Pair := ⟨zeroLanes, ninf32, f⟩

/-- The pair that is written: one of the states of R170, whatever a torn read or a norm of −∞ has left
(notes/assumptions/91.md). -/
def Pair.fit (p : Pair) : Pair :=
  if (unpack .f32 p.n).isNaN then Pair.nan p.f
  else if p.n = ninf32 || p.d.all (· == 0) then Pair.zero p.f else p

def sumSq (l : List Int) : Int := l.foldl (fun a x => a + x * x) 0

/-- The tolerance fix-up of renorm, in ascending lane order (R91). -/
def fixUp : List Int → Int → List Int
  | [], _ => []
  | w :: r, dd =>
    if (dd.natAbs : Int) ≤ 65536 then w :: r
    else if dd > 0 ∧ w ≠ 0 ∧ w ≠ -32768 ∧ w ≠ 32767 then
      (if w > 0 then w + 1 else w - 1) :: fixUp r (dd - (2 * w.natAbs + 1))
    else if dd < 0 ∧ w ≠ 0 then (if w > 0 then w - 1 else w + 1) :: fixUp r (dd + (2 * w.natAbs - 1))
    else w :: fixUp r dd

/-- A positive value rounded nearest-even to 24 significant bits. -/
def round24 (m : Nat) (e : Int) : Nat × Int :=
  let q := (Nat.log2 m : Int) + e - 23
  ((roundAt .rne false m e q).1, q)

/-- renorm (R91): lanes and a norm as an exact value. -/
def renorm (v : List Int) (n : FV) : Pair :=
  if n == .inf true || v.all (· == 0) then Pair.zero 0#8
  else
    let q := (sumSq v).toNat
    let (gm, ge) := match FV.rsqrt (.fin false q 0) with
      | (.fin _ m e, _) => round24 m (e + 14)
      | _ => (1, 0)
    let w := v.map fun x =>
      let y := (roundInt .rne (decide (x < 0)) (x.natAbs * gm) ge).1
      if y < -32768 then -32768 else if y > 32767 then 32767 else y
    let w := fixUp w (2 ^ 28 - sumSq w)
    let (nb, f) := roundF .f32 .rne false (FV.sub .rne n (log2V gm ge))
    ⟨w, nb, f⟩

/-- dpack (R175): lanes w · 2^q and a norm as an exact value. -/
def dpack (w : List Int) (q : Int) (n0 : FV) : Pair :=
  if n0.isNaN then Pair.nan 0#8
  else if w.all (· == 0) then Pair.zero 0#8
  else
    let top := w.foldl (fun a x => max a x.natAbs) 0
    let k := 13 - (Nat.log2 top : Int) - q
    let v := w.map fun x => (roundInt .rne (decide (x < 0)) x.natAbs (q + k)).1
    renorm v (FV.add .rne n0 (FV.ofInt (14 - k) 0))

/-- The dot product of two directions. -/
def dot (a b : List Int) : Int := (a.zip b).foldl (fun s (x, y) => s + x * y) 0

/-- DCOS (R180). -/
def dcosOf (a b : Row) : LaneOut := roundF .f32 .rne false (FV.ofInt (dot (dirLanes a) (dirLanes b)) (-28))

/-- p · 2^x rounded once, for a finite x given as an exact value (R179, R180). -/
def scalePow2 (fmt : Fmt) (rm : Rnd) (p : Int) (x : FV) : LaneOut :=
  if p = 0 then (0, 0#8) else roundF fmt rm false (FV.mul (FV.ofInt p 0) (exp2V x))

/-- DDOTW (R180). -/
def ddotwOf (a b : Row) (na nb : Nat) : LaneOut :=
  let p := dot (dirLanes a) (dirLanes b)
  let x := unpack .f32 na
  let y := unpack .f32 nb
  if x.isNaN || y.isNaN then (nan32, 0#8)
  else if na = ninf32 || nb = ninf32 then (0, 0#8)
  else if na = inf32 || nb = inf32 then
    (if p > 0 then (inf32, 0#8) else if p < 0 then (ninf32, 0#8) else (nan32, fIV))
  else scalePow2 .f32 .rne p (FV.add .rne (FV.add .rne x y) (FV.ofInt (-28) 0))

/-- The copying forms DSCL and DSPLIT (R181): `b` the operand's encoding, `sub` for DSPLIT. -/
def dsclOf (sub : Bool) (a : Row) (na b : Nat) : Pair :=
  let x := unpack .f32 na
  let y := unpack .f32 b
  if x.isNaN || y.isNaN then Pair.nan (flagIf y.invalid fIV)
  else if na = ninf32 then (if !sub && b == inf32 then Pair.nan fIV else Pair.zero 0#8)
  else
    let (n, f) := roundF .f32 .rne false (if sub then FV.sub .rne x y else FV.add .rne x y)
    if (unpack .f32 n).isNaN then Pair.nan (f ||| fIV)
    else if n = ninf32 then Pair.zero f
    else ⟨dirLanes a, n, f⟩

/-- DADD and DSUB (R182). A larger operand whose lanes a torn read shows as 0 adds nothing. -/
def daddOf (sub : Bool) (a b : Row) (na nb : Nat) : Pair :=
  let la := dirLanes a
  let lb := (dirLanes b).map fun x => if sub then -x else x
  let x := unpack .f32 na
  let y := unpack .f32 nb
  if x.isNaN || y.isNaN then Pair.nan 0#8
  else if na = ninf32 then ⟨lb, nb, 0#8⟩
  else if nb = ninf32 then ⟨la, na, 0#8⟩
  else if na = inf32 && nb = inf32 then
    let w := (la.zip lb).map fun (p, q) => p + q
    if w.all (· == 0) then Pair.nan fIV else dpack w 0 (.inf false)
  else if na = inf32 then ⟨la, na, 0#8⟩
  else if nb = inf32 then ⟨lb, nb, 0#8⟩
  else
    let swap := FV.cmp x y == .lt
    let (big, small, hi, lo) := if swap then (lb, la, y, x) else (la, lb, x, y)
    let alone := big.all (· == 0)
    let (fm, fe) := match FV.sub .rne lo hi with
      | .fin n m e => let (p, q) := if alone then exp2All n m e else exp2Of n m e; round24 p q
      | _ => (1, 0)
    if alone then dpack (small.map fun r => r * (fm : Int)) fe (FV.add .rne hi (FV.ofInt (-14) 0)) else
    let q := min 0 fe
    let w := (big.zip small).map fun (p, r) => p * (2 : Int) ^ (-q).toNat + r * (fm : Int) * (2 : Int) ^ (fe - q).toNat
    dpack w q (FV.add .rne hi (FV.ofInt (-14) 0))

/-- DLERP (R183). An interpolated norm of −∞ beside lanes that are not 0 is no state of R170: `Pair.fit` writes the zero code,
the model's choice (notes/assumptions/91.md). -/
def dlerpOf (a b : Row) (na nb t : Nat) : Pair :=
  let x := unpack .f32 na
  let y := unpack .f32 nb
  match unpack .f32 t with
  | .nan inv => Pair.nan (flagIf inv fIV)
  | tv =>
    if x.isNaN || y.isNaN then Pair.nan 0#8
    else if na = ninf32 || nb = ninf32 then Pair.zero 0#8
    else
      match tv with
      | .fin n m e =>
        let q := min 0 e
        let ti := mantAt n m e q
        let one : Int := (2 : Int) ^ (-q).toNat
        let w := ((dirLanes a).zip (dirLanes b)).map fun (p, r) => (one - ti) * p + ti * r
        if w.all (· == 0) then Pair.zero 0#8
        else
          let p := dpack w q (.fin false 0 0)
          let rest := FV.ofInt (one - ti) q
          let (nn, f) := roundF .f32 .rne false (FV.add .rne (FV.mul rest x) (FV.mul tv y))
          if (unpack .f32 nn).isNaN then Pair.nan f else ⟨p.d, nn, f⟩
      | _ => Pair.nan fIV

/-- DNSET (R184). -/
def dnsetOf (d : Row) (nj a : Nat) : Pair :=
  let v := unpack .f32 a
  if v.isNaN then Pair.nan (flagIf v.invalid fIV)
  else if (unpack .f32 nj).isNaN then Pair.nan 0#8
  else if a = ninf32 then Pair.zero 0#8
  else if nj = ninf32 then Pair.zero 0#8
  else ⟨dirLanes d, a, 0#8⟩

/-- DJOIN (R185); `sx` and `sy` say whether the operands are scalars. -/
def djoinOf (x y : Nat) (sx sy : Bool) : LaneOut :=
  let u := unpack .f32 x
  let v := unpack .f32 y
  if u.isNaN || v.isNaN then (nan32, flagIf ((sx && u.invalid) || (sy && v.invalid)) fIV)
  else if x = ninf32 then (y, 0#8)
  else if y = ninf32 then (x, 0#8)
  else if x = inf32 || y = inf32 then (inf32, 0#8)
  else roundF .f32 .rne false (joinV u v)

/-- DFROM of exact lanes (R178). -/
def dfromOf (l : List FV) : Pair :=
  if l.any FV.isNaN then Pair.nan (flagIf (l.any FV.invalid) fIV)
  else if l.any FV.isInf then dpack (l.map fun v => if v.isInf then (if v.sign then -1 else 1) else 0) 0 (.inf false)
  else
    let q := minExp l 0
    dpack (l.map fun v => match v with | .fin n m e => mantAt n m e q | _ => 0) q (.fin false 0 0)

/-- One lane of DTO (R179). -/
def dtoLane (fmt : Fmt) (rm : Rnd) (n : Nat) (v : Int) : LaneOut :=
  let x := unpack .f32 n
  if x.isNaN then (canonNaN fmt, 0#8)
  else if n = ninf32 then (0, 0#8)
  else if n = inf32 then
    (if v > 0 then (infBits fmt, 0#8) else if v < 0 then (signBit fmt + infBits fmt, 0#8) else (canonNaN fmt, fIV))
  else scalePow2 fmt rm v (FV.add .rne x (FV.ofInt (-14) 0))

end Sys2Proof.Machine
end

