-- ==== Sys2Proof/Machine/Rows.lean ====
section
/-! DEFINITION. Machine/Rows.lean: row timing on va and sf (R147): what a row instruction does with one row, when the row
lands, and what the unit does next. -/

namespace Sys2Proof.Machine

/-- Cycles from a row's reading to its landing (R151 to R167). -/
def rowLatency : Instr → Nat
  | .vadd .. | .vsub .. | .vmul .. => 4
  | .vfma .. => 5
  | .vmin .. | .vmax .. | .vabs .. | .vneg .. | .vsel .. | .vcmp .. => 2
  | .vand .. | .vor .. | .vxor .. | .vshl .. | .vshr .. => 1
  | .vcvt .. => 3
  | .vqnt .. | .vdq .. => 4
  | .vaddp8 .. | .vmulp8 .. => 3
  | .vbcast .. | .vrow .. => 1
  | .vperm .. => 2
  | .vsum .. | .vmaxr .. | .vmred .. | .vmscan .. => 4
  | .vband .. => 1
  | .vpopc .. | .vpfx .. => 2
  | .visect .. => 4
  | .vlsem .. => 6
  | .exp2 .. | .log2 .. | .rcp .. | .rsqrt .. => 6
  | .sqrt .. | .tanh .. => 8
  | .sin .. | .cos .. => 10
  | _ => 1

/-- The first row of a range and the row after its last (R145). -/
def rowRange : Instr → Nat × Nat
  | .vadd _ _ _ _ _ rf nl | .vsub _ _ _ _ _ rf nl | .vmul _ _ _ _ _ rf nl | .vfma _ _ _ _ _ _ rf nl => (rf.toNat, rangeEnd rf nl)
  | .vmin _ _ _ _ rf nl | .vmax _ _ _ _ rf nl | .vabs _ _ _ rf nl | .vneg _ _ _ rf nl => (rf.toNat, rangeEnd rf nl)
  | .vcmp _ _ _ _ _ rf nl | .vsel _ _ _ _ _ rf nl => (rf.toNat, rangeEnd rf nl)
  | .vand _ _ _ _ rf nl | .vor _ _ _ _ rf nl | .vxor _ _ _ _ rf nl | .vshl _ _ _ _ rf nl => (rf.toNat, rangeEnd rf nl)
  | .vshr _ _ _ _ _ rf nl => (rf.toNat, rangeEnd rf nl)
  | .vcvt _ _ _ _ _ _ rf nl | .vqnt _ _ _ _ _ _ rf nl | .vdq _ _ _ _ _ _ _ rf nl => (rf.toNat, rangeEnd rf nl)
  | .vaddp8 _ _ _ _ _ rf nl | .vmulp8 _ _ _ _ _ rf nl | .vbcast _ _ _ _ rf nl => (rf.toNat, rangeEnd rf nl)
  | .vrow _ _ _ _ rf nl | .vperm _ _ _ _ rf nl => (rf.toNat, rangeEnd rf nl)
  | .vsum _ _ _ _ _ rf nl | .vmaxr _ _ _ _ _ rf nl => (rf.toNat, rangeEnd rf nl)
  | .vmred _ _ _ _ _ _ rf nl | .vmscan _ _ _ _ _ _ rf nl => (rf.toNat, rangeEnd rf nl)
  | .vband _ _ _ _ rf nl | .vpopc _ _ _ rf nl | .vpfx _ _ _ _ rf nl => (rf.toNat, rangeEnd rf nl)
  | .visect _ _ _ _ _ _ rf nl | .vlsem _ _ _ _ rf nl => (rf.toNat, rangeEnd rf nl)
  | .exp2 _ _ _ rf nl | .log2 _ _ _ rf nl | .sin _ _ _ rf nl | .cos _ _ _ rf nl | .tanh _ _ _ rf nl => (rf.toNat, rangeEnd rf nl)
  | .rcp _ _ _ _ rf nl | .rsqrt _ _ _ _ rf nl | .sqrt _ _ _ _ rf nl => (rf.toNat, rangeEnd rf nl)
  | _ => (0, 0)

/-- What one row gives: rows of D, the first bit and the number of bits of them it writes, the value for va.y, the flags, and the operation carried on. -/
structure RowOut where
  rows  : List (Nat × Row)
  part  : Nat × Nat
  byp   : Option Nat
  flags : FlagSet
  op    : RowOp
deriving DecidableEq, Repr

/-- A row whose lanes are computed independently. -/
def RowOut.lanes (o : RowOp) (p : Row × FlagSet) : RowOut := ⟨[(o.row, p.1)], (0, 2048), none, p.2, o⟩

/-- The source of an sf instruction (R166). -/
def sfSrc : Instr → Option Port
  | .exp2 _ _ a _ _ | .log2 _ _ a _ _ | .sin _ _ a _ _ | .cos _ _ a _ _ | .tanh _ _ a _ _ => some a
  | .rcp _ _ a _ _ _ | .rsqrt _ _ a _ _ _ | .sqrt _ _ a _ _ _ => some a
  | _ => none

/-- One row of a row instruction, with the tile rows as they stand in its cycle (R147, R151 to R166). -/
def rowCompute (x : Ctx) (o : RowOp) : RowOut :=
  let ty := o.ty
  let w := ty.width
  let src := fun p v => x.srcRow ty p v o.row
  let sat8 := x.afl.getLsbD 17
  let fz := x.afl.getLsbD 16
  let three := fun (pa pb pc : Port) (f : Nat → Nat → Nat → LaneOut) =>
    let ra := src pa o.a
    let rb := src pb o.b
    let rc := src pc o.c
    RowOut.lanes o (mapLanes ty fun i => f (laneAt ra w i) (laneAt rb w i) (laneAt rc w i))
  let arith := fun (rm : Rnd) (pa pb : Port) (int : Nat → Nat → Nat) (fp : FV → FV → FV) =>
    three pa pb .z fun a b _ => laneArith ty rm (fun a b _ => int a b) (fun a b _ => fp a b) a b 0
  let bits := fun (pa pb : Port) (f : Nat → Nat → Nat) => three pa pb .z fun a b _ => (f a b, 0#8)
  match o.ins with
  | .vadd _ _ a b rm _ _ => arith rm a b (· + ·) (FV.add rm)
  | .vsub _ _ a b rm _ _ => arith rm a b (fun a b => a + (2 ^ 32 - b)) (FV.sub rm)
  | .vmul _ _ a b rm _ _ => arith rm a b (· * ·) FV.mul
  | .vfma _ _ a b c rm _ _ => three a b c (laneArith ty rm (fun a b c => a * b + c) (FV.fma rm))
  | .vmin _ _ a b _ _ => three a b .z fun a b _ => laneMinMax ty false a b
  | .vmax _ _ a b _ _ => three a b .z fun a b _ => laneMinMax ty true a b
  | .vabs _ _ a _ _ => three a .z .z fun a _ _ => laneAbs ty a
  | .vneg _ _ a _ _ => three a .z .z fun a _ _ => laneNeg ty a
  | .vcmp _ _ a b c _ _ =>
    let ra := src a o.a
    let rb := src b o.b
    let l := (upFrom 0 ty.lanes).map fun i => laneCmp ty c (laneAt ra w i) (laneAt rb w i)
    ⟨[(o.row, packRow w (l.map fun p => if p.1 then 2 ^ w - 1 else 0))], (0, 2048), some (maskOf ((l.map (·.1)).take 64)),
      l.foldl (fun f p => f ||| p.2) 0#8, o⟩
  | .vsel _ _ a b c _ _ => three a b c fun a b c => (if c = 0 then b else a, 0#8)
  | .vand _ _ a b _ _ => bits a b (· &&& ·)
  | .vor _ _ a b _ _ => bits a b (· ||| ·)
  | .vxor _ _ a b _ _ => bits a b (· ^^^ ·)
  | .vshl _ _ a b _ _ => bits a b fun a b => a * 2 ^ (b % 32)
  | .vshr _ _ a b ar _ _ => bits a b fun a b => if ar then wrap 32 (s32 a / (2 : Int) ^ (b % 32)) else a / 2 ^ (b % 32)
  | .vcvt _ _ a _ fmt rm _ _ =>
    let (lo, n, r, f) := cvtRow ty fmt rm sat8 x.srseed x.srctr o.b.toNat (x.row (tOf a) o.row)
    ⟨[(o.row, r)], (lo, n), none, f, o⟩
  | .vqnt _ _ a b fmt rm rf _ =>
    let cw := fmtWidth fmt
    let ra := x.row (tOf a) o.row
    let l := (upFrom 0 64).map fun i =>
      let (s, z) := if o.grp = 0 then (FV.fin false 1 0, (0 : Int)) else x.param b rf.toNat o.grp (o.row - rf.toNat) i
      qntLane rm cw (unpack .f32 (laneAt ra 32 i)) s z
    RowOut.lanes o (packRow cw (l.map (·.1)), joinFlags l)
  | .vdq _ _ a b _ fmt rm rf _ =>
    let ra := x.row (tOf a) o.row
    let t := unpack .f32 (bvField o.c 0 32)
    let l := (upFrom 0 64).map fun i =>
      let (s, z) := if o.grp = 0 then (FV.fin false 1 0, (0 : Int)) else x.param b rf.toNat o.grp (o.row - rf.toNat) i
      roundF .f32 rm false (FV.mul (dqValue fmt fz ra i s z) t)
    RowOut.lanes o (packRow 32 (l.map (·.1)), joinFlags l)
  | .vaddp8 _ _ a b fmt _ _ => three a b .z fun a b _ => fp8Lane fmt false sat8 fz a b
  | .vmulp8 _ _ a b fmt _ _ => three a b .z fun a b _ => fp8Lane fmt true sat8 fz a b
  | .vbcast _ _ a _ _ _ => RowOut.lanes o (x.srcRow ty a o.a o.row, 0#8)
  | .vrow _ _ a sf rf _ => RowOut.lanes o (x.row (tOf a) (sf.toNat + (o.row - rf.toNat)), 0#8)
  | .vperm _ _ a b _ _ =>
    let ra := x.row (tOf a) o.row
    let rb := x.row (tOf b) o.row
    RowOut.lanes o (mapLanes ty fun i => (laneAt ra w (laneAt rb 8 i % ty.lanes), 0#8))
  | .vsum _ _ d a rm _ _ =>
    let (y, f) := rowSum ty rm (Sys2Proof.Machine.lanes (x.row (tOf a) o.row) w ty.lanes)
    ⟨if isTile d then [(o.row, packRow w [y])] else [], (0, 2048), some y, f, o⟩
  | .vmaxr _ _ d a arg _ _ =>
    let (m, i, f) := rowMax ty (Sys2Proof.Machine.lanes (x.row (tOf a) o.row) w ty.lanes)
    ⟨if isTile d then [(o.row, packRow w [m])] else [], (0, 2048), some (if arg then i else m), f, o⟩
  | .vmred _ _ a b op rm _ _ =>
    let (r, m, f) := redRow false ty op rm (x.row (tOf a) o.row) (x.row (tOf b) o.row)
    ⟨[(o.row, r)], (0, 2048), some m, f, o⟩
  | .vmscan _ _ a b op rm _ _ =>
    let (r, m, f) := redRow true ty op rm (x.row (tOf a) o.row) (x.row (tOf b) o.row)
    ⟨[(o.row, r)], (0, 2048), some m, f, o⟩
  | .vband _ _ a b _ _ =>
    let r := x.row (tOf a) o.row &&& x.row (tOf b) o.row
    ⟨[(o.row, r)], (0, 2048), some (maskOf ((Sys2Proof.Machine.lanes r 32 64).map (· == 0))), 0#8, o⟩
  | .vpopc _ _ a _ _ =>
    let l := (Sys2Proof.Machine.lanes (x.row (tOf a) o.row) 32 64).map fun v => popcount v 32
    ⟨[(o.row, packRow 32 l)], (0, 2048), some (l.foldl (· + ·) 0), 0#8, o⟩
  | .vpfx _ _ a _ _ _ =>
    let (l, run) := pfxGo (Sys2Proof.Machine.lanes (x.row (tOf a) o.row) 32 64) (bvField o.acc 0 32)
    ⟨[(o.row, packRow 32 l)], (0, 2048), some (run % 2 ^ 32), 0#8, { o with acc := BitVec.ofNat 64 (run % 2 ^ 32) }⟩
  | .visect _ _ _ a b _ _ _ =>
    let st := isectStep x (tOf a) (tOf b) o.row o.acc
    ⟨[], (0, 2048), if o.row + 1 = (rowRange o.ins).2 then some st.toNat else none, 0#8, { o with acc := st }⟩
  | .vlsem _ _ a b _ _ =>
    if o.row % 2 = 0 then ⟨[], (0, 2048), none, 0#8, { o with pa := x.row (tOf a) o.row, pb := x.row (tOf b) o.row }⟩
    else
      let tri := fun (p : Row) (t : Port) =>
        let r := x.row (tOf t) o.row
        (⟨laneAt r 32 0, laneAt r 32 1, Sys2Proof.Machine.lanes p 32 64⟩ : Triple)
      let (t, f) := lse2 (tri o.pa a) (tri o.pb b)
      ⟨[(o.row - 1, packRow 32 t.a), (o.row, packRow 32 [t.m, t.s])], (0, 2048), none, f, o⟩
  | i => if (sfSrc i).isSome then three ((sfSrc i).getD .z) .z .z fun a _ _ => specialLane ty i a else ⟨[], (0, 2048), none, 0#8, o⟩

/-- Does the row draw on SRCTR (R75)? -/
def drawsSr : Instr → Bool
  | .vcvt _ _ _ _ _ rm _ _ => rm == .sr
  | _ => false

/-- SRCTR after a stochastically rounded row: only its low 16 bits count on (R75). -/
def bumpSr (c : Word) : Word := bvSet c 0 16 (bvField c 0 16 + 1)

/-- The E bit and the slot of a row instruction. -/
def rowEph : Instr → Bool
  | .vsum _ e _ _ _ _ _ | .vmaxr _ e _ _ _ _ _ | .visect _ e _ _ _ _ _ _ => e
  | _ => false

/-- The flights of one processed row: each row of D in its own flight, the bypass result and a scalar D with the first
(R147, R161, R389). -/
def rowFlights (u : Unit') (slot : Nat) (o : RowOp) (out : RowOut) : List Flight :=
  let lat := rowLatency o.ins
  let last := o.row + 1 == (rowRange o.ins).2
  let tile := match rowDest o.ins with
    | .tile t => some t.val
    | _ => none
  let rows := match tile with
    | some t => if o.dead then [] else out.rows.map fun (r, v) =>
        if out.part.2 = 2048 then Wr.row t r v else Wr.rowPart t r out.part.1 out.part.2 v
    | none => []
  let scal := match out.byp with
    | some v =>
      let v := BitVec.ofNat 64 v
      (if last && tile.isNone then (destWrs u (rowEph o.ins) (rowDest o.ins) v) else [Wr.byp u.num v])
    | none => []
  match rows with
  | [] => if scal.isEmpty && out.flags == 0#8 then [] else [⟨o.id, lat, u, slot, out.flags, scal⟩]
  | w :: rest => ⟨o.id, lat, u, slot, out.flags, w :: scal⟩ :: rest.map fun w => ⟨o.id, lat, u, slot, 0#8, [w]⟩

/-- A unit reads the row of this cycle: the row's results go into flight, the next row or the next instruction follows
(R147). AFL's controls are read with it, where R71 names no moment: DESIGN CHOICE (notes/assumptions/96.md). -/
def Ctx.rowTick (x : Ctx) (sfu : Bool) : Ctx :=
  let u := if sfu then x.sf else x.va
  match u.cur with
  | none => x
  | some o =>
    let out := rowCompute x o
    let fl := rowFlights (if sfu then .sf else .va) (if sfu then 4 else 3) o out
    let last := o.row + 1 ≥ (rowRange o.ins).2
    let u := if last then ⟨u.queue.head?, u.queue.tail⟩ else { u with cur := some { out.op with row := o.row + 1 } }
    let x := { x with flights := x.flights ++ fl, srctr := if drawsSr o.ins then bumpSr x.srctr else x.srctr }
    if sfu then { x with sf := u } else { x with va := u }

/-- An issued row instruction joins its unit: it starts at once on an idle unit (R147). -/
def Ctx.rowIssue (x : Ctx) (sfu : Bool) (o : RowOp) : Ctx :=
  let u := if sfu then x.sf else x.va
  let u := if u.cur.isNone && u.queue.isEmpty then ⟨some o, []⟩ else { u with queue := u.queue ++ [o] }
  if sfu then { x with sf := u } else { x with va := u }

end Sys2Proof.Machine
end

