-- ==== Sys2Proof/Machine/Causes.lean ====
section
/-! DEFINITION. Machine/Causes.lean: the issue-time causes that depend on tags, bobbins and handles, and the waits, of the
scalar, vector, directional and matrix instructions (R44, R87, R88, R126 to R135, R146, R150 to R165, R173, R178, R179,
R187, R194, R195, R200 to R213). -/

namespace Sys2Proof.Machine

/-- A cause found at issue: its code without the slot number, whether the slot number is added (R379), the address and the
offset the record carries (R387), DETAIL (R380). -/
structure Cause where
  base   : Nat
  bySlot : Bool
  addr   : Word := 0
  ofs    : Word := 0
  detail : BitVec 16 := 0
deriving DecidableEq, Repr

/-- A cause of a chapter, with its slot number. -/
def slotted (base : Nat) : Cause := { base := base, bySlot := true }
def plain (code : Nat) : Cause := { base := code, bySlot := false }

/-- The cause when a condition fails. -/
def need (ok : Bool) (c : Cause) : List Cause := if ok then [] else [c]

/-! ## Tags (R146) -/

/-- A tile source that must carry tag `t`: void is 0x058, another tag 0x050. -/
def needTag (x : Ctx) (p : Port) (ok : Tag → Bool) : List Cause :=
  if isTile p then
    let t := x.tagOf p
    if t = .void then [slotted 0x058] else need (ok t) (slotted 0x050)
  else []

/-- D must carry tag `t` or be void. -/
def needDest (x : Ctx) (d : Port) (t : Tag) : List Cause :=
  if isTile d then
    let td := x.tagOf d
    need (td == .void || t == .void || td == t) (slotted 0x050)
  else []

/-- INT32 takes no rounding (R146). -/
def needRne (t : Tag) (rm : Rnd) : List Cause := need (t != .int32 || rm == .rne) (slotted 0x010)

/-- The general rule of R146: sources of one type T among those the entry admits, D of T or void. -/
def typed (x : Ctx) (d : Port) (srcs : List Port) (ok : Tag → Bool) (rm : Rnd) : List Cause :=
  let t := x.rowType d srcs
  srcs.flatMap (fun p => needTag x p (· == t)) ++
    (if srcs.any isTile then [] else need (t != .void) (slotted 0x058)) ++
    need (t == .void || ok t) (slotted 0x050) ++ needDest x d t ++ needRne t rm

def anyTag : Tag → Bool := fun _ => true
def isInt (t : Tag) : Bool := t == .int32
def isF32 (t : Tag) : Bool := t == .fp32

/-- The conditions VCMP takes for a type (R152). -/
def vcondOk (t : Tag) (c : VCond) : Bool :=
  if t = .int32 then c != .un && c != .ord
  else match c with
    | .ltu | .leu | .gtu | .geu => false
    | _ => true

/-- sf takes FP32 and BF16-pair (R166). -/
def sfTyped (x : Ctx) (d a : Port) (rm : Rnd) : List Cause := typed x d [a] (fun t => t == .fp32 || t == .bf16) rm

/-! ## Matrix combinations (R87, R202) -/

/-- The matrix modes of R87. -/
inductive MMode where
  | f16 | f8 | i8 | g8 | i4 | g4 | f32 | f64
deriving DecidableEq, Repr

/-- The mode that two bobbins' formats and group sizes imply (R87). -/
def matMode (a b : Bobbin) : Option MMode :=
  let none' := decide (a.grp = 0) && decide (b.grp = 0)
  let same := decide (a.grp = b.grp) && decide (a.grp ≠ 0)
  match a.fmt, b.fmt with
  | some .bf16, some .bf16 => if none' then some .f16 else none
  | some .f16, some .f16 => if none' then some .f16 else none
  | some .e4m3, some .e4m3 | some .e4m3, some .e5m2 | some .e5m2, some .e4m3 | some .e5m2, some .e5m2 =>
    if none' then some .f8 else none
  | some .i8, some .i8 => if none' then some .i8 else none
  | some .g8, some .g8 => if same then some .g8 else none
  | some .i4, some .i4 => if none' then some .i4 else none
  | some .g4, some .g4 => if same then some .g4 else none
  | some .f32, some .f32 => if none' then some .f32 else none
  | some .f64, some .f64 => if none' then some .f64 else none
  | _, _ => none

/-- Depth K of a mode (R87). -/
def MMode.depth : MMode → Nat
  | .f16 => 64 | .f8 | .i8 | .g8 => 128 | .i4 | .g4 => 256 | .f32 | .f64 => 16
/-- Columns of the output (R87). -/
def MMode.ncols : MMode → Nat
  | .f64 => 32 | _ => 64
/-- Occupancy O (R202). -/
def MMode.occ : MMode → Nat
  | .f64 => 128 | _ => 32
/-- Accumulator tag (R87). -/
def MMode.acc : MMode → Tag
  | .f64 => .fp64 | .i8 | .i4 => .int32 | _ => .fp32
/-- Does MSTEP accept the mode (R202)? -/
def MMode.steps : MMode → Bool
  | .f16 | .f8 | .f32 => true
  | _ => false

/-- The geometry of R202: A is 64 × K, B is K × N, or N × K for MMAT; slots of 8 KiB. -/
def geomOk (m : MMode) (a b : Bobbin) (tr : Bool) : Bool :=
  decide (a.rows = 64) && decide (a.cols = m.depth) && decide (a.tsz = 5) && decide (b.tsz = 5) &&
    (if tr then decide (b.rows = m.ncols) && decide (b.cols = m.depth) else decide (b.rows = m.depth) && decide (b.cols = m.ncols))

/-- A bobbin that an instruction names must be configured (R187). -/
def needBob (x : Ctx) (p : Port) : List Cause :=
  match p with
  | .b r => need (x.bobbin r.val).v (plain 0x0F0)
  | _ => []

/-- The checks of MMA and MMAT (R87, R88, R202, R204). -/
def mmaCauses (x : Ctx) (d a b : Port) (depth : Nat) (tr : Bool) : List Cause :=
  let ba := x.bobbin (bOf a)
  let bb := x.bobbin (bOf b)
  let pair := if ba.v && bb.v then
      match matMode ba bb with
      | some m => need (geomOk m ba bb tr) (slotted 0x040) ++ need (decide (depth < m.depth)) (plain 0x0F3) ++ needDest x d m.acc
      | none => [slotted 0x040]
    else []
  needBob x a ++ needBob x b ++ need (a != b) (plain 0x0F3) ++ pair

/-- The checks of MSTEP (R205). -/
def mstepCauses (x : Ctx) (d a b c : Port) (t : Nat) : List Cause :=
  let ba := x.bobbin (bOf a)
  let bb := x.bobbin (bOf b)
  let bc := x.bobbin (bOf c)
  let pair := if ba.v && bb.v then
      match matMode ba bb with
      | some m => need (m.steps && geomOk m ba bb false) (slotted 0x040)
      | none => [slotted 0x040]
    else []
  let decay := if bc.v then need (bc.fmt == some .f32 && decide (bc.rowsl = 0) && decide (bc.colsl = 6) && !bc.lay && decide (bc.tsz = 0))
      (plain 0x0F6) else []
  needBob x a ++ needBob x b ++ needBob x c ++ need (a != b) (plain 0x0F3) ++ pair ++ decay ++
    need (!ba.v || decide (t ≤ ba.cap)) (plain 0x0F6) ++ need (!bc.v || decide (t ≤ bc.cap)) (plain 0x0F6) ++ needDest x d .fp32

/-- The tag MLOAD gives its tile, if the bobbin fits (R207). -/
def mloadTag (b : Bobbin) : Option Tag :=
  if b.rowsl = 6 ∧ b.lay = false ∧ b.tsz = 6 then
    match b.fmt with
    | some .f32 => if b.colsl = 6 then some .fp32 else none
    | some .i32 => if b.colsl = 6 then some .int32 else none
    | some .f64 => if b.colsl = 5 then some .fp64 else none
    | some .bf16 => if b.colsl = 7 then some .bf16 else none
    | _ => none
  else none

/-- The formats MDRAIN writes (R209). -/
def drainFmt : Option Fmt → Bool
  | some .f32 | some .f64 | some .f16 | some .bf16 | some .e4m3 | some .e5m2 | some .i32 | some .i8 => true
  | _ => false

/-- The tag MFMT gives its destination, where the pair is accepted (R210). -/
def mfmtTag (t : Tag) (f : Fmt) : Option Tag :=
  match t, f with
  | .fp32, .f32 | .int32, .f32 => some .fp32
  | .fp32, .i32 | .int32, .i32 => some .int32
  | .fp64, .f64 => some .fp64
  | _, _ => none

/-! ## Causes from tags and bobbins -/

/-- The causes that hold for an instruction of these units against tags and bobbins as they stand (R44, R88, R146). -/
def tagCauses (x : Ctx) (i : Instr) : List Cause :=
  match i with
  | .vadd _ d a b rm _ _ | .vsub _ d a b rm _ _ | .vmul _ d a b rm _ _ => typed x d [a, b] anyTag rm
  | .vfma _ d a b c rm _ _ => typed x d [a, b, c] anyTag rm
  | .vmin _ d a b _ _ | .vmax _ d a b _ _ => typed x d [a, b] anyTag .rne
  | .vabs _ d a _ _ | .vneg _ d a _ _ => typed x d [a] anyTag .rne
  | .vcmp _ d a b c _ _ =>
    let t := x.rowType d [a, b]
    typed x d [a, b] anyTag .rne ++ need (vcondOk t c) (slotted 0x010)
  | .vsel _ d a b c _ _ => typed x d [a, b, c] anyTag .rne
  | .vand _ d a b _ _ | .vor _ d a b _ _ | .vxor _ d a b _ _ => typed x d [a, b] anyTag .rne
  | .vshl _ d a b _ _ => typed x d [a, b] isInt .rne
  | .vshr _ d a b _ _ _ => typed x d [a, b] isInt .rne
  | .vcvt _ d a _ fmt _ _ _ => needTag x a anyTag ++ need (d != a || x.tagOf d == cvtTag fmt) (slotted 0x050)
  | .vqnt _ d a b _ _ _ _ => needTag x a isF32 ++ needTag x b isInt ++ needDest x d .int32
  | .vdq _ d a b _ fmt _ _ _ => needTag x a (if fmt = .f32 then isF32 else isInt) ++ needTag x b isInt ++ needDest x d .fp32
  | .vaddp8 _ d a b _ _ _ | .vmulp8 _ d a b _ _ _ => typed x d [a, b] isInt .rne
  | .vbcast _ d _ fmt _ _ => needDest x d (Tag.ofFmt fmt)
  | .vrow _ d a _ _ _ => needTag x a anyTag ++ needDest x d (x.tagOf a)
  | .vperm _ d a b _ _ => needTag x a anyTag ++ needTag x b isInt ++ needDest x d (x.tagOf a)
  | .vsum _ _ d a rm _ _ => needTag x a anyTag ++ needDest x d (x.tagOf a) ++ needRne (x.tagOf a) rm
  | .vmaxr _ _ d a _ _ _ => needTag x a anyTag ++ needDest x d (x.tagOf a)
  | .vmred _ d a b _ rm _ _ | .vmscan _ d a b _ rm _ _ =>
    needTag x a isInt ++ needTag x b (· != .bf16) ++ needDest x d (x.tagOf b) ++ needRne (x.tagOf b) rm
  | .vband _ d a b _ _ => typed x d [a, b] isInt .rne
  | .vpopc _ d a _ _ => typed x d [a] isInt .rne
  | .vpfx _ d a _ _ _ => typed x d [a] isInt .rne
  | .visect _ _ _ a b _ _ _ => typed x .z [a, b] isInt .rne
  | .vlsem _ d a b _ _ => typed x d [a, b] isF32 .rne
  | .exp2 _ d a _ _ | .log2 _ d a _ _ | .sin _ d a _ _ | .cos _ d a _ _ | .tanh _ d a _ _ => sfTyped x d a .rne
  | .rcp _ d a rm _ _ | .rsqrt _ d a rm _ _ | .sqrt _ d a rm _ _ => sfTyped x d a rm
  | .dfrom _ _ a rf => needTag x a (fun t => t == .fp32 || t == .bf16) ++
      need (!(x.tagOf a == .fp32 && rf == 63#6)) (slotted 0x010)
  | .dto _ d _ fmt _ _ => needDest x d (Tag.ofFmt fmt)
  | .mload _ _ a _ => needBob x a ++ need (!(x.bobbin (bOf a)).v || (mloadTag (x.bobbin (bOf a))).isSome) (plain 0x0F6)
  | .mma _ d a b _ _ _ _ depth => mmaCauses x d a b depth.toNat false
  | .mmat _ d a b _ _ _ _ depth => mmaCauses x d a b depth.toNat true
  | .mdrain _ d a _ _ =>
    let b := x.bobbin (bOf d)
    let t := x.tagOf a
    needBob x d ++ needTag x a (fun t => t == .fp32 || t == .fp64 || t == .int32) ++
      need (!b.v || (decide (b.rowsl = 6) && drainFmt b.fmt && (t == .void || t == .bf16 || decide (b.cols = t.lanes)))) (plain 0x0F6)
  | .mstep _ d a b c steps => mstepCauses x d a b c (steps.toNat + 1)
  | .mstash _ _ a _ _ | .munst _ _ a _ _ => needTag x a anyTag
  | .mfmt _ _ a _ fmt _ => needTag x a fun t => (mfmtTag t fmt).isSome
  | .bpush _ d _ | .bpop _ d _ => needBob x d
  | .tld _ d _ _ _ | .tldg _ d _ _ _ => needBob x d
  | .tst _ _ _ _ c | .tsts _ _ _ _ c => needBob x c
  | .tmv _ _ _ b => needBob x b
  | .cpy _ _ a b _ _ => needBob x a ++ needBob x b
  | _ => []

/-- The causes that an instruction of these units finds in register values at its own group. -/
def unitCauses (x : Ctx) (i : Instr) : List Cause :=
  match i with
  | .hadv _ _ _ a _ _ => need (Handle.fmt (x.handle (hOf a))).isSome (slotted 0x048)
  | .vqnt _ _ _ b fmt _ rf _ => if fmt = .g8 || fmt = .g4 then
      need (laneAt (x.row (tOf b) rf.toNat) 32 0 / 2 ^ 30 != 0) (slotted 0x050) else []
  | .vdq _ _ _ b _ fmt _ rf _ => if fmt = .g8 || fmt = .g4 then
      need (laneAt (x.row (tOf b) rf.toNat) 32 0 / 2 ^ 30 != 0) (slotted 0x050) else []
  | .mstash _ _ _ b _ | .munst _ _ _ b _ => need (bvField (x.val b) 0 8 == 0) (plain 0x0F5)
  | _ => []

/-! ## Waits -/

/-- The tiles an mx operation reads (R199). -/
def mxReads : Instr → List Nat
  | .mdrain _ _ a _ _ | .mfmt _ _ a _ _ _ | .mstash _ _ a _ _ => [tOf a]
  | _ => []

/-- mx operations issued and not retired, oldest first. -/
def Core.mxOps (x : Core) : List Op := (x.mx.toList.map (·.op)) ++ x.mxq

/-- Tiles that mx holds (R148, R199, R214): MUNST's until its rows land. -/
def Core.heldTiles (x : Core) : List Nat :=
  (x.mxOps.flatMap fun o => mxWrites o.ins ++ mxReads o.ins) ++
    x.stash.flatMap fun o => match o.ins with
      | .munst _ _ a _ _ => [tOf a]
      | _ => []

/-- The bobbins whose slots an mx operation claims, with how many and whether under keep (R194, R204 to R207). -/
def mxClaims : Instr → List (Nat × Nat × Bool)
  | .mload _ _ a k => [(bOf a, 1, k)]
  | .mma _ _ a b _ _ ka kb _ | .mmat _ _ a b _ _ ka kb _ => [(bOf a, 1, ka), (bOf b, 1, kb)]
  | .mstep _ _ a b c t => [(bOf a, t.toNat + 1, false), (bOf b, 1, true), (bOf c, t.toNat + 1, false)]
  | _ => []

/-- Is this an instruction of mx that occupies the array (R198)? -/
def isMxOp : Instr → Bool
  | .mzero .. | .mload .. | .mma .. | .mmat .. | .mmask .. | .mdrain .. | .mstep .. | .mstash .. | .munst .. | .mfmt .. => true
  | _ => false

/-- A copy from bobbin `b` that has still to claim its slots: in ce's queue, or taken and waiting for room (R194). -/
def Core.copyPending (x : Core) (b : Nat) : Bool :=
  (x.ce ++ x.taken.filter fun o => o.phase == .queued).any fun o => match o.ins with
    | .cpy _ _ (.b r) _ _ _ => r.val == b
    | _ => false

/-- Rows of tile `t` that va, sf or dv have still to land (R148). -/
def rowsPending (x : Ctx) (t : Nat) : Bool :=
  (x.va.ops ++ x.sf.ops).any (fun o => !o.dead && rowDest o.ins == .tile (Fin.ofNat 8 t)) ||
    x.flights.any fun f => f.wrs.any fun w => match w with
      | .row u _ _ => u == t
      | .rowPart u _ _ _ _ => u == t
      | _ => false

/-- The claims of operation `id` that its next step reads: the first unfinished one on each bobbin it names. -/
def Ctx.mxSlots (x : Ctx) (o : Op) : List (Option SlotState) :=
  (mxClaims o.ins).map fun e => ((x.bobbin e.1).claimed o.id).map (x.bobbin e.1).slot

/-- Whether an operation, or the next step of an MSTEP, can start. -/
inductive Ready where
  | yes | wait | failed
deriving DecidableEq, Repr

/-- An operation starts once its slots have landed, the rows it reads or writes are at rest, and an MDRAIN has a free slot
(R148, R195, R216). -/
def mxReady (x : Core) (o : Op) : Ready :=
  let st := x.ctx.mxSlots o
  let room := match o.ins with
    | .mdrain _ d .. => let b := x.ctx.bobbin (bOf d); decide (b.cnt < b.cap)
    | _ => true
  if st.any (· == some .failed) then .failed
  else if st.any (· != some .landed) then .wait
  else if room && !(mxWrites o.ins ++ mxReads o.ins).any (rowsPending x.ctx) then .yes else .wait

/-- Does an MDRAIN of bobbin `b` start in this clock, and take its slot before a group that issues in it (R193, R198)? -/
def Core.drainStarts (x : Core) (b : Nat) : Bool :=
  match x.mx, x.mxq with
  | none, o :: _ => (match o.ins with | .mdrain _ d .. => bOf d == b | _ => false) && (x.mode == .u || x.saving) && mxReady x o == .yes
  | _, _ => false

/-! ## Room in bobbins (R193 to R195) -/

/-- The slots an instruction claims of bobbin `b` at issue, keep claims apart (R194). -/
def issueClaims (b : Nat) : Instr → Nat
  | .tst _ _ _ _ (.b r) | .tsts _ _ _ _ (.b r) => if r.val = b then 1 else 0
  | i => ((mxClaims i).filter fun e => e.1 == b && !e.2.2).foldl (fun a e => a + e.2.1) 0

/-- The slots an instruction reserves in bobbin `b` at issue (R193). -/
def issueFills (b : Nat) : Instr → Nat
  | .tld _ (.b r) _ _ _ | .tldg _ (.b r) _ _ _ | .tmv _ _ _ (.b r) => if r.val = b then 1 else 0
  | _ => 0

/-- Does an instruction claim bobbin `b` at issue, under keep or not? -/
def claimsBob (b : Nat) (i : Instr) : Bool := decide (issueClaims b i ≠ 0) || (mxClaims i).any fun e => e.1 == b

/-- The slots of a group that act, taken together, find no room for what they claim or reserve in bobbin `b`, or a claim would
overtake that of a copy issued earlier: the group waits (R194, R195). -/
def bobbinWait (x : Core) (l : List Instr) (b : Nat) : Bool :=
  let l := l.filter fun i => x.ctx.guard (guardOf i)
  let bo := x.ctx.bobbin b
  let n := l.foldl (fun a i => a + issueClaims b i) 0
  let m := l.foldl (fun a i => a + issueFills b i) 0
  bo.v && ((n != 0 && decide (bo.cap < bo.qp + n)) || (m != 0 && decide (bo.cap < bo.cnt + m + (if x.drainStarts b then 1 else 0))) ||
    (l.any (claimsBob b) && x.copyPending b))

/-- The bobbin waits of a group (R194, R195). -/
def groupWaits (x : Core) (l : List Instr) : List Nat := if (upFrom 0 16).any (bobbinWait x l) then [2] else []

/-- The tiles a va or sf slot names (R148). -/
def slotTiles (i : Instr) : List Nat :=
  match slotInfo i with
  | some f => (f.srcs ++ f.dsts).filterMap fun p => match p with
    | .tile t => some t.val
    | _ => none
  | none => []

/-- The reasons a slot of S, va, sf, dv, mx or a bobbin instruction waits at issue: 2 bobbin, 4 queue (R410); room in bobbins
apart. A group that waits for va's or sf's full queue stops SCYC (R34), with which the rows of that queue advance (R147), so that S mode
alone ends the wait: DESIGN CHOICE (notes/assumptions/105.md). -/
def unitWaits (x : Core) (i : Instr) : List Nat :=
  let acts := x.ctx.guard (guardOf i)
  let own := match slotInfo i with
    | some f =>
      let rows := (f.unit == .va || f.unit == .sf)
      let q := if f.unit = .va then x.ctx.va.queue else x.ctx.sf.queue
      let act := acts && (rowRange i).2 != 0
      if rows && act && decide (q.length ≥ 4) then [4] else []
    | none => []
  own ++ match i with
    | .mqry .. | .msync .. => if x.mxOps.isEmpty then [] else [2]
    | .bset _ d _ _ | .bpush _ d _ | .bpop _ d _ =>
      let b := x.ctx.bobbin (bOf d)
      if acts && b.v && (b.qp != 0 || b.pending) then [2] else []
    | i => if acts && isMxOp i then (if x.mxq.length ≥ 8 then [4] else []) else []

end Sys2Proof.Machine
end

