-- ==== Sys2Proof/Machine/Access.lean ====
section
/-! DEFINITION. Machine/Access.lean: grants, and reading and writing bytes on behalf of an operation (R217 to
R223, R243, R275 to R279). -/

namespace Sys2Proof.Machine

/-! ## Grants (R221 to R223) -/

/-- A window register's first byte and the byte after its last, within a level of `size` bytes (R222). -/
def windowOf (w : Word) (size : Nat) : Nat × Nat :=
  (bvField w 0 12 * 0x10000, min size ((bvField w 0 12 + bvField w 16 12) * 0x10000))

/-- Bytes [lo, hi) of a level lie in the grant of an access (R223). -/
def inGrant (smode : Bool) (spwcl spwdi : Word) (lvl lo hi : Nat) : Bool :=
  if smode then true else
    match lvl with
    | 0 => decide (hi ≤ 0x1F0000)
    | 1 => let (a, b) := windowOf spwcl 0x1000000; decide (a ≤ lo) && decide (hi ≤ b)
    | 2 => let (a, b) := windowOf spwdi 0x8000000; decide (a ≤ lo) && decide (hi ≤ b)
    | _ => true

/-- Bytes in a scratchpad level (R217). -/
def levelSize (lvl : Nat) : Nat :=
  match lvl with
  | 0 => 0x200000 | 1 => 0x1000000 | _ => 0x8000000

/-- The scratchpad that a level code and a location name for a core; 0xFF is its own (R217, R275). -/
def levelSpace (core lvl loc : Nat) : Space :=
  match lvl with
  | 0 => .core core
  | 1 => .cluster (if loc = 0xFF then clusterOf core else loc)
  | _ => .die (if loc = 0xFF then dieOf core else loc)

/-- The partition holds byte `off` of a space (R223). -/
def holds (s : State) (p : Nat) : Space → Nat → Bool
  | .core c, off => (s.part p).hasCluster (clusterOf c) && decide (off < 0x200000)
  | .cluster k, off => (s.part p).hasCluster k && decide (off < 0x1000000)
  | .die d, off => (s.part p).hasGranule d (off / 0x200000) && decide (off < 0x8000000)
  | _, _ => false

/-! ## Bytes of an operation -/

/-- One side of a move: a level code (3 is HBM through translation) and a location. -/
structure Side where
  lvl : Nat
  loc : Nat
deriving DecidableEq, Repr

def Side.own (lvl : Nat) : Side := ⟨lvl, 0xFF⟩

/-- A copy command, whose scratchpad bytes are checked against the partition's holding on every side (R276). -/
def isCopy : Instr → Bool
  | .cpy .. | .cpyl .. => true
  | _ => false

/-- Where a byte of a side lies, or the cause that fails the item: in the core's own scratchpads the level's size and the grant
bound it, in another cluster's or die's the partition's holding there (R223, R241, R276). -/
inductive Place where
  | at (sp : Space) (off : Nat)
  | bad (cause : Nat)
deriving DecidableEq, Repr

def placeOf (s : State) (op : Op) (sd : Side) (wr : Bool) (addr : Nat) : Place :=
  if sd.lvl = 3 then
    match xlate s op.core op.part addr wr with
    | .ok pa .. => .at .pa pa
    | .bad c => .bad c
  else
    let sp := levelSpace op.core sd.lvl sd.loc
    let mine := decide (sp = levelSpace op.core sd.lvl 0xFF)
    if decide (addr < levelSize sd.lvl) && ((mine && !isCopy op.ins) || holds s op.part sp addr) &&
        (!mine || inGrant op.smode op.spwcl op.spwdi sd.lvl addr (addr + 1))
    then .at sp addr else .bad 0x0E6

/-- Does the operation write outside its core, so that a rerun does not perform it again (R404)? `lvls` are the levels it
writes. -/
def onceLvls (lvls : List Nat) : Bool := lvls.any (· != 0)

/-- Write bytes for an operation: core-scratchpad writes of repeated operations enter the undo log, every write enters a
rerun's signature, and a performed-once operation of a rerun writes nothing (R402 to R404). All parties see all writes in the one
order in which they are applied, where R252 lets them see causally unordered ones in different orders: DESIGN CHOICE
(notes/assumptions/93.md). -/
def opWrite (s : State) (op : Op) (once : Bool) (sp : Space) (off : Nat) (bytes : List Byte) : State :=
  if !once && decide (sp = .core op.core) then writeOwn s op.core op.id off bytes
  else
    let s := noteSig s op.core op.id sp off bytes
    if op.orig.isSome then s else writeBytes s sp off bytes

/-- A byte, or a half-byte, moved from one side to the other; no source stands for zero bits. -/
inductive Move where
  | byte (src : Option Nat) (dst : Nat)
  | nib (src : Option Nat) (dst : Nat)
deriving DecidableEq, Repr

/-- The half-bytes of an item moved so far. -/
def Move.nibs : Move → Nat
  | .byte .. => 2
  | .nib .. => 1

/-- The cause of an uncorrectable error that an operation's item meets at a byte (R241, R400). -/
def Op.errAt (o : Op) (n : Nat) : Option Nat := o.err.bind fun e => if e.1 = n then some e.2 else none

/-- How far an item got: the state, and the cause and byte offset of a failure. -/
structure Moved where
  st   : State
  fail : Option (Nat × Nat)

/-- Half-byte `k` of a byte. -/
def nibOf (b : Byte) (k : Nat) : Nat := bvField b (4 * (k % 2)) 4

/-- An access of a side in HBM uses its engine's cache. -/
def State.useSide (s : State) (op : Op) (sd : Side) (addr : Nat) : State :=
  if sd.lvl = 3 then s.useRange op.core op.part (addr % 2 ^ 64) else s

/-- Perform moves in order until one fails; bytes before the failure stay written (R243, R400). -/
def moveAll (op : Op) (once : Bool) (ss ds : Side) : List Move → Nat → State → Moved
  | [], _, s => ⟨s, none⟩
  | m :: r, n, s =>
    let (src, dst) := match m with
      | .byte a b => (a.map (2 * ·), 2 * b)
      | .nib a b => (a, b)
    let from' := match src with
      | some a => placeOf s op ss false (a / 2 % 2 ^ 64)
      | none => .at .pa 0
    match op.errAt (n / 2), from', placeOf s op ds true (dst / 2 % 2 ^ 64) with
    | some k, _, _ => ⟨s, some (k, n / 2)⟩
    | none, .at sp so, .at dp dof =>
      let s := match src with
        | some a => s.useSide op ss (a / 2)
        | none => s
      let s := s.useSide op ds (dst / 2)
      let v : Byte := match src with
        | some _ => readByte s sp so
        | none => 0
      let b := match m with
        | .byte .. => v
        | .nib a k => bvSet (readByte s dp dof) (4 * (k % 2)) 4 (match a with | some j => nibOf v j | none => 0)
      moveAll op once ss ds r (n + m.nibs) (opWrite s op once dp dof [b])
    | none, .bad c, _ => ⟨s, some (c, n / 2)⟩
    | none, _, .bad c => ⟨s, some (c, n / 2)⟩

/-- The moves of one element of `w` bits between half-byte positions. -/
def elemMoves (w : Nat) (src : Option Nat) (dst : Nat) : List Move :=
  if w ≥ 8 then (upFrom 0 (w / 8)).map fun k => .byte (src.map fun a => a / 2 + k) (dst / 2 + k) else [.nib src dst]

/-! ## Tiles and extents (R232, R234) -/

/-- The elements of a tile in slot order of columns within rows: (r, c). -/
def tileIndex (b : Bobbin) : List (Nat × Nat) := (upFrom 0 b.rows).flatMap fun r => (upFrom 0 b.cols).map fun c => (r, c)

/-- A used dimension above 1 of size 0 makes the extent empty (R123). -/
def Handle.bare (h : HandleBits) : Bool := Handle.used h 2 == 0 || Handle.used h 3 == 0

/-- Is tile element (r, c) inside the handle's extent (R232)? -/
def inExtent (h : HandleBits) (r c : Nat) : Bool :=
  !Handle.bare h && decide (c < Handle.used h 0) && decide (r < Handle.used h 1)

/-- Loading a tile: elements outside the extent become zero bits (R232). `row` maps a tile row to the handle row; tile rows
that `keep` excludes move nothing. -/
def loadMoves (b : Bobbin) (slot : Nat) (h : HandleBits) (row : Nat → Nat) (keep : Nat → Bool) : List Move :=
  let w := Handle.width h
  ((tileIndex b).filter fun e => keep e.1).flatMap fun (r, c) =>
    let dst := 2 * b.slotAddr slot + b.nibbleOf r c
    elemMoves w (if inExtent h (row r) c then some (Handle.nibbleOf h c (row r) 0 0) else none) dst

/-- Storing a tile: elements outside the extent move nothing (R232). -/
def storeMoves (b : Bobbin) (slot : Nat) (h : HandleBits) (row : Nat → Nat) (keep : Nat → Bool) : List Move :=
  let w := Handle.width h
  ((tileIndex b).filter fun e => keep e.1).flatMap fun (r, c) =>
    if inExtent h (row r) c then elemMoves w (some (2 * b.slotAddr slot + b.nibbleOf r c)) (Handle.nibbleOf h c (row r) 0 0) else []

/-- The index points of a handle's extent, dimension 0 fastest (R234, R276). -/
def extentIndex (h : HandleBits) : List (Nat × Nat × Nat × Nat) :=
  (upFrom 0 (Handle.used h 3)).flatMap fun l => (upFrom 0 (Handle.used h 2)).flatMap fun k =>
    (upFrom 0 (Handle.used h 1)).flatMap fun j => (upFrom 0 (Handle.used h 0)).map fun i => (i, j, k, l)

/-- Copying an extent; `so` and `do'` are byte offsets added by outer dimensions (R276). -/
def extentMoves (a b : HandleBits) (so do' : Int) : List Move :=
  let w := Handle.width a
  (extentIndex a).flatMap fun (i, j, k, l) =>
    let src := (((Handle.nibbleOf a i j k l : Nat) : Int) + 2 * so) % (2 ^ 65 : Nat)
    let dst := (((Handle.nibbleOf b i j k l : Nat) : Int) + 2 * do') % (2 ^ 65 : Nat)
    elemMoves w (some src.toNat) dst.toNat

/-- The lowest and one past the highest half-byte of an extent of the given sizes, as exact integers; none if empty. -/
def extentSpan (h : HandleBits) (n0 n1 n2 n3 : Nat) : Option (Int × Int) :=
  if n0 = 0 ∨ n1 = 0 ∨ n2 = 0 ∨ n3 = 0 then none else
    let part := fun (n j : Nat) => ((n : Int) - 1) * Handle.stride h j
    let lo := min 0 (part n1 1) + min 0 (part n2 2) + min 0 (part n3 3)
    let hi := ((n0 : Int) - 1) + max 0 (part n1 1) + max 0 (part n2 2) + max 0 (part n3 3)
    let w : Int := (Handle.width h / 4 : Nat)
    let base : Int := 2 * Handle.base h + (if Handle.width h < 8 then Handle.nib h else 0)
    some (base + lo * w, base + (hi + 1) * w)

/-- Level and grant causes of a span on a scratchpad handle (R217, R223). -/
def spanCauses (x : Core) (lvl : Nat) (span : Option (Int × Int)) : List Cause :=
  if lvl = 3 then [] else
    match span with
    | none => []
    | some (lo, hi) =>
      let a := lo / 2
      let b := (hi + 1) / 2
      need (decide (0 ≤ a) && decide (b ≤ levelSize lvl)) { slotted 0x080 with addr := BitVec.ofInt 64 a } ++
      need (decide (0 ≤ a) && inGrant (x.mode == .s) x.ctx.spwcl x.ctx.spwdi lvl a.toNat b.toNat) { slotted 0x088 with addr := BitVec.ofInt 64 a }

/-- A scratchpad handle has no BASE bit above its level (R217). -/
def baseCauses (h : HandleBits) : List Cause :=
  let l := Handle.lvl h
  need (decide (l = 3) || decide (Handle.base h < levelSize l)) { slotted 0x080 with addr := BitVec.ofNat 64 (Handle.base h) }

/-! ## Causes of LDS, STS, ATOM, transfers and copies at issue (R229, R233, R234, R259, R274, R277) -/

/-- The address of LDS and STS (R229). -/
def ldsAddr (x : Ctx) (a c : Port) (off : BitVec 12) : Word := x.val a + x.val c + off.signExtend 64
/-- The address of an ATOM (R259). -/
def atomAddr (x : Ctx) (a : Port) (off : BitVec 11) : Word := x.val a + off.signExtend 64

/-- The checks of LDS and STS (R229). -/
def ldsCauses (x : Core) (a c : Port) (sz : BitVec 2) (off : BitVec 12) : List Cause :=
  let w := ldsAddr x.ctx a c off
  let ad := w.toNat
  let n := 2 ^ sz.toNat
  need (decide (ad + n ≤ 0x200000) && decide (ad % n = 0)) { slotted 0x080 with addr := w } ++
  need (x.mode == .s || decide (ad + n ≤ 0x1F0000)) { slotted 0x088 with addr := w }

/-- The checks of an ATOM (R259). -/
def atomCauses (x : Core) (a : Port) (lvl : Lvl) (q64 : Bool) (off : BitVec 11) : List Cause :=
  let w := atomAddr x.ctx a off
  let ad := w.toNat
  let n := if q64 then 8 else 4
  let l := lvl.code.toNat
  need (decide (ad % n = 0)) { plain 0x0C2 with addr := w } ++
    (if l = 3 then [] else
      need (decide (ad + n ≤ levelSize l)) { slotted 0x080 with addr := w } ++
      need (inGrant (x.mode == .s) x.ctx.spwcl x.ctx.spwdi l ad (ad + n)) { slotted 0x088 with addr := w })

/-- The handle a TLD or TST moves: advanced by B elements along dimension 0 (R233). -/
def tileHandle (h : HandleBits) (b : Word) : HandleBits := Handle.advance h b.toInt 0

/-- A handle whose format an instruction uses has no reserved FMT (R61). -/
def fmtCauses (h : HandleBits) : List Cause := need (Handle.fmt h).isSome (slotted 0x048)

/-- The handle and extent checks of a tile transfer (R217, R233); `gather` for TLDG and TSTS. The BASE bits are those of the
handle as it stands, the extent is that of the handle advanced by B. -/
def tileCauses (x : Core) (h : HandleBits) (b : Word) (bp : Port) (gather : Bool) : List Cause :=
  let bo := x.ctx.bobbin (bOf bp)
  let idx := b.toNat
  let n := if bo.v then 4 * bo.rows else 0
  let a := tileHandle h b
  baseCauses h ++ fmtCauses h ++ need ((!bo.v || Handle.fmt h == bo.fmt) && Handle.wellFormed h) (slotted 0x090) ++
    (if gather then
      need (decide (idx % 4 = 0) && decide (idx + n ≤ 0x200000)) { slotted 0x080 with addr := b } ++
        need (x.mode == .s || decide (idx + n ≤ 0x1F0000)) { slotted 0x088 with addr := b }
    else if bo.v && (Handle.fmt h).isSome && !Handle.bare h then
      spanCauses x (Handle.lvl h) (extentSpan a (min bo.cols (Handle.used a 0)) (min bo.rows (Handle.used a 1)) 1 1)
    else [])

/-- Equal formats, ranks and sizes of two handles (R234, R274). -/
def sameShape (a b : HandleBits) : Bool :=
  Handle.fmt a == Handle.fmt b && (Handle.fmt a).isSome && Handle.rank a == Handle.rank b && Handle.wellFormed a && Handle.wellFormed b &&
    (upFrom 0 4).all fun j => Handle.size a j == Handle.size b j

/-- The tile shape rule of R234: a handle that fills a bobbin's tile. -/
def tileShape (h : HandleBits) (b : Bobbin) : Bool :=
  decide (Handle.rank h ≤ 1) && Handle.wellFormed h && decide (Handle.used h 0 = b.cols) && decide (Handle.used h 1 = b.rows) && Handle.fmt h == b.fmt

/-- The span of a handle's whole extent. -/
def wholeSpan (h : HandleBits) : Option (Int × Int) :=
  extentSpan h (Handle.used h 0) (Handle.used h 1) (Handle.used h 2) (Handle.used h 3)

/-- The checks of TMV (R234). -/
def tmvCauses (x : Core) (a b : Port) : List Cause :=
  let ha := x.ctx.handle (hOf a)
  let src := fmtCauses ha ++ need (Handle.lvl ha != 3 && Handle.wellFormed ha) (slotted 0x090) ++ baseCauses ha ++ spanCauses x (Handle.lvl ha) (wholeSpan ha)
  match b with
  | .b r =>
    let bo := x.ctx.bobbin r.val
    if bo.v then src ++ need (tileShape ha bo) (slotted 0x090) else src
  | _ =>
    let hb := x.ctx.handle (hOf b)
    src ++ fmtCauses hb ++ need (Handle.lvl hb != 3 && sameShape ha hb) (slotted 0x090) ++ baseCauses hb ++ spanCauses x (Handle.lvl hb) (wholeSpan hb)

/-- The checks of a handle that a CPY names: BASE bits, format (R217, R61). -/
def cpyHandle (x : Core) (p : Port) : List Cause :=
  match p with
  | .h r => let h := x.ctx.handle r.val; baseCauses h ++ fmtCauses h
  | _ => []

/-- The checks of CPY at issue (R274). -/
def cpyCauses (x : Core) (a b : Port) : List Cause :=
  cpyHandle x a ++ cpyHandle x b ++
  match a, b with
  | .b _, .b _ => [plain 0x0E9]
  | .b r, _ =>
    let bo := x.ctx.bobbin r.val
    if bo.v then need (tileShape (x.ctx.handle (hOf b)) bo) (plain 0x0E0) else []
  | _, .b r =>
    let bo := x.ctx.bobbin r.val
    if bo.v then need (tileShape (x.ctx.handle (hOf a)) bo) (plain 0x0E0) else []
  | _, _ => need (sameShape (x.ctx.handle (hOf a)) (x.ctx.handle (hOf b))) (plain 0x0E0)

/-- The checks of CPYL at issue (R277). -/
def cpylCauses (x : Core) (a b : Port) (l : Lvl) : List Cause :=
  let ad := (x.ctx.val a).toNat
  let n := (x.ctx.val b).toNat
  let lvl := l.code.toNat
  need (decide (ad % 64 = 0) && decide (n ≤ 65535)) (plain 0x0E5) ++
    (if lvl = 3 ∨ n = 0 then [] else
      need (decide (ad + 64 * n ≤ levelSize lvl)) { slotted 0x080 with addr := x.ctx.val a } ++
      need (inGrant (x.mode == .s) x.ctx.spwcl x.ctx.spwdi lvl ad (ad + 64 * n)) { slotted 0x088 with addr := x.ctx.val a })

/-! ## Scopes (R248) -/

/-- A party of the ordering model: a core, a cellar unit, the host (R247). -/
inductive Party where
  | core (c : Nat) | cellar (n : Nat) | host
deriving DecidableEq, Repr

/-- The C-die whose domain holds a party; the host lies in none. -/
def Party.die : Party → Option Nat
  | .core c => some (dieOf c)
  | .cellar n => some (n / 2)
  | .host => none

/-- The cluster whose domain holds a party. -/
def Party.cluster : Party → Option Nat
  | .core c => some (clusterOf c)
  | _ => none

/-- Does scope `sc` of party `p` include party `q` (R248)? -/
def scopeHas (sc : Scope) (p q : Party) : Bool :=
  match sc with
  | .core => p == q
  | .cluster => p == q || (p.cluster.isSome && p.cluster == q.cluster)
  | .die => p == q || (p.die.isSome && p.die == q.die)
  | .module => p == q || (p.die.isSome && q.die.isSome)
  | .system => true

/-- Two scoped operations mutually include each other (R248). The model performs all accesses in one order, which gives every
order that mutual inclusion asks for, and more (notes/assumptions/93.md). -/
def mutuallyInclude (sc : Scope) (p : Party) (sc' : Scope) (q : Party) : Bool := scopeHas sc p q && scopeHas sc' q p

end Sys2Proof.Machine
end

