-- ==== Sys2Proof/Machine/CausesM.lean ====
section
/-! DEFINITION. Machine/CausesM.lean: the issue-time causes and waits of the memory, copy and synchronisation
instructions (R195, R229 to R234, R257 to R261, R266, R274, R277, R283 to R288). -/

namespace Sys2Proof.Machine

/-- Two contexts are bound to each other by a valid hatch queue (R376), one its producer, the other its consumer, and the flag is the one
that the binding names for the second (R24). -/
def boundBy (h : Hatch) (c : Nat) (ctag : BitVec 16) (d dtag flag : Nat) : Bool :=
  let cons := fun (k t : Nat) => bvField h.bnd 40 8 == k && bvField h.bnd 48 16 == t
  let prod := fun (k t : Nat) => !h.cfg.getLsbD 62 && bvField h.bnd 8 8 == k && bvField h.bnd 16 16 == t
  h.cfg.getLsbD 63 && ((prod c ctag.toNat && cons d dtag && bvField h.bnd 35 5 == flag) ||
    (cons c ctag.toNat && prod d dtag && bvField h.bnd 3 5 == flag))

/-- May operations of a context send increments to a flag of a core and tag (R24, R276, R286): any of a core of its partition, or the one
that a hatch queue names of its other party? -/
def mayReach (s : State) (part c : Nat) (ctag : BitVec 16) (target ttag flag : Nat) : Bool :=
  (s.part part).hasCluster (clusterOf target) || s.dies.toList.any fun d => d.hatch.any fun e => boundBy e.2 c ctag target ttag flag

/-- The causes that these instructions find in register values at their own group. -/
def memCauses (s : State) (c : Nat) (i : Instr) : List Cause :=
  let x := s.core c
  match i with
  | .lds _ _ _ a cc sz _ off => ldsCauses x a cc sz off
  | .sts _ a _ cc sz off => ldsCauses x a cc sz off
  | .atomAdd _ _ _ a _ _ lvl q off | .atomInc _ _ _ a _ _ lvl q off | .atomDec _ _ _ a _ _ lvl q off => atomCauses x a lvl q off
  | .atomMin _ _ _ a _ _ lvl q _ off | .atomMax _ _ _ a _ _ lvl q _ off => atomCauses x a lvl q off
  | .atomAnd _ _ _ a _ _ lvl q off | .atomOr _ _ _ a _ _ lvl q off | .atomXor _ _ _ a _ _ lvl q off => atomCauses x a lvl q off
  | .atomXchg _ _ _ a _ _ lvl q off | .atomCas _ _ _ a _ _ _ lvl q off => atomCauses x a lvl q off
  | .tld _ d a b _ => tileCauses x (x.ctx.handle (hOf a)) (x.ctx.val b) d false
  | .tldg _ d a b _ => tileCauses x (x.ctx.handle (hOf a)) (x.ctx.val b) d true
  | .tst _ _ a b cc => tileCauses x (x.ctx.handle (hOf a)) (x.ctx.val b) cc false
  | .tsts _ _ a b cc => tileCauses x (x.ctx.handle (hOf a)) (x.ctx.val b) cc true
  | .tmv _ _ a b => tmvCauses x a b
  | .cpy _ _ a b _ _ => cpyCauses x a b
  | .cpyl _ _ a b _ _ l => cpylCauses x a b l
  | .await _ _ _ _ b _ => need (decide ((x.ctx.val b).toNat ≤ 1048575)) (plain 0x0E4)
  | .waitq _ _ _ a => need (bvField (x.ctx.val a) 0 32 != 0) (plain 0x0E4)
  | .post _ d a b k sc rmt =>
    need (decide ((x.ctx.val a).toNat ≤ 1048575)) (plain 0x0E4) ++
      (if rmt then
        let t := (x.ctx.val b).toNat
        need (decide (t ≤ 255) && mayReach s x.part c x.ctag t (bvField (x.ctx.val k) 0 16) ((kOf d).getD 32) && scopeHas sc (.core c) (.core t)) (plain 0x0E3)
      else [])
  | .ovl _ _ a b _ _ o =>
    let n := (x.ctx.val b).toNat
    need (decide (1 ≤ n) && decide (n ≤ 1024) && (x.ctx.val a).toNat % 64 == 0 && decide (o.toNat ≠ x.ctx.seq.pc / 0x10000)) (plain 0x166)
  | _ => []

/-- Is this a fence: a FENCE, or a POST of amount 0 that waits to be sent (R257, R286)? -/
def Core.fenceOps (x : Core) : List Op := x.fences ++ x.sy.filter fun o => o.phase == .queued && o.a == 0

/-- A pending fence that what issues now has to wait for: what a frozen context has pending holds the handler back from nothing
(R257). -/
def Core.fenced (x : Core) : Bool := x.fenceOps.any fun f => x.mode == .u || f.smode

/-- An operation of ag that a FENCE holds at issue (R257). -/
def fenceHolds : Instr → Bool
  | .lds .. | .sts .. | .tld .. | .tst .. | .tldg .. | .tsts .. | .fence .. => true
  | i => isAtom i

/-- The destination port of an ATOM. -/
def atomDest : Instr → Port
  | .atomAdd _ _ d .. | .atomInc _ _ d .. | .atomDec _ _ d .. | .atomMin _ _ d .. | .atomMax _ _ d .. => d
  | .atomAnd _ _ d .. | .atomOr _ _ d .. | .atomXor _ _ d .. | .atomXchg _ _ d .. | .atomCas _ _ d .. => d
  | _ => .z

/-- Does a slot wait for a pending ATOM (R261)? One that a trap froze is part of the in-flight list and holds the handler back from
nothing (R262). -/
def waitsAtom (x : Core) (i : Instr) : Bool :=
  let pend := x.ag.filter fun o => isAtom o.ins && (x.mode == .u || o.smode)
  match slotInfo i with
  | none => false
  | some f =>
    !pend.isEmpty && ((f.srcs.contains (.byp 2)) || (match i with | .lds .. | .sts .. => true | _ => false) ||
      pend.any fun o => atomDest o.ins != .z && (f.srcs ++ f.dsts).contains (atomDest o.ins))

/-- Does an instruction enter ag's queue, or ce's queue (R230, R266)? -/
def entersAg : Instr → Bool
  | .tld .. | .tst .. | .tldg .. | .tsts .. => true
  | i => isAtom i
def entersCe : Instr → Bool
  | .tmv .. | .cpy .. | .cpyl .. | .ovl .. | .hqpush .. | .hqpop .. => true
  | _ => false

/-- The flag of a mask that WAITQ takes (R285). -/
def waitqFlag (x : Ctx) (m : Nat) : Option Nat := (upFrom 0 32).find? fun f => m.testBit f && decide (1 ≤ x.flagVal f)

/-- The other reasons these instructions wait at issue: 2 bobbin, 3 flag, 4 queue (R34, R410). A false guard waits for no flag
(R283). -/
def memWaits (x : Core) (i : Instr) : List Nat :=
  let g := x.ctx.guard (guardOf i)
  (if fenceHolds i && x.fenced then [4] else []) ++
  (if g && entersAg i && decide (x.ag.length ≥ 16) then [4] else []) ++
  (if g && entersCe i && decide (x.ce.length ≥ 16) then [4] else []) ++
  match i with
  | .await _ _ _ a b _ =>
    let t := (x.ctx.val b).toNat
    match kOf a with
    | some f => if g && decide (t ≤ 1048575) && decide (x.ctx.flagVal f < t) then [3] else []
    | none => []
  | .waitq _ _ _ a =>
    let m := bvField (x.ctx.val a) 0 32
    if g && m != 0 && (waitqFlag x.ctx m).isNone then [3] else []
  | .flushy .. => if g && decide (x.outst ≠ 0) then [3] else []
  | .post .. => if g && decide ((x.sy.filter fun o => o.phase == .queued).length ≥ 8) then [4] else []
  | .syswr _ (.sys n) _ =>
    if g && ((n.val = 4 && x.dsc.getLsbD 61) || (n.val = 30 && x.ctxBusy.isSome)) then [4] else []
  | _ => []

end Sys2Proof.Machine
end

