-- ==== Sys2Proof/Machine/CausesT.lean ====
section
/-! DEFINITION. Machine/CausesT.lean: the issue-time causes and waits of the row, KV, shuttle, hatch-queue, launch,
synchronisation, sequencer and system instructions (R99 to R107, R136, R291 to R308, R333, R341 to R346, R367 to R377,
R385, R390, R401). -/

namespace Sys2Proof.Machine

/-! ## Core-scratchpad arrays and row handles -/

/-- `n` bytes at a core-scratchpad offset lie in the context's grant (R223). -/
def arrayIn (x : Core) (off n : Nat) : Bool := decide (off + n ≤ (if x.mode = .s then 0x200000 else 0x1F0000))
/-- As `arrayIn`, with the offset's alignment; an empty array has no bytes to check. -/
def arrayOk (x : Core) (w : Word) (align n : Nat) : Bool :=
  decide (w.toNat % align = 0) && (n == 0 || arrayIn x w.toNat n)

/-- The bytes of a span lie in their level and grant. -/
def spanIn (x : Core) (lvl : Nat) (span : Option (Int × Int)) : Bool := (spanCauses x lvl span).isEmpty

/-- R291's limits on a row handle. -/
def rowHandleOk (h : HandleBits) : Bool :=
  Handle.wellFormed h && Handle.lvl h != 3 && Handle.rank h == 1 && decide (1 ≤ Handle.size h 1) && decide (Handle.size h 1 ≤ 4096) &&
    (match Handle.fmt h with
    | some .f32 | some .f16 | some .bf16 | some .e4m3 | some .e5m2 | some .i8 => true
    | _ => false)

/-- Bytes of one row of a row handle. -/
def rowBytes (h : HandleBits) : Nat := Handle.size h 0 * (Handle.width h / 8)
/-- Bytes of one stash record (R303). -/
def recordBytes (h : HandleBits) : Nat := 16 + 16 * ceilDiv (rowBytes h) 16
/-- R303's limits on the stash handle. -/
def stashOk (h : HandleBits) : Bool :=
  Handle.wellFormed h && Handle.lvl h != 3 && Handle.fmt h == some .i8 && Handle.rank h == 0 && decide (Handle.base h % 16 = 0)

/-- R328's limits on a handle of query rows, its extent apart. -/
def queryHandleOk (h : HandleBits) : Bool :=
  Handle.wellFormed h && Handle.lvl h == 0 && Handle.rank h == 1 && (Handle.fmt h == some .f32 || Handle.fmt h == some .bf16) &&
    decide (Handle.size h 0 = 128) && decide (1 ≤ Handle.size h 1) && decide (Handle.size h 1 ≤ 64)
/-- KVAPP's limits on the handle of its data form (R321, R333). -/
def appendHandleOk (h : HandleBits) : Bool :=
  Handle.wellFormed h && Handle.lvl h == 0 && Handle.rank h == 1 && (Handle.fmt h == some .f32 || Handle.fmt h == some .bf16) &&
    [256, 512, 1024, 2048].contains (Handle.size h 0) && decide (1 ≤ Handle.size h 1) && decide (Handle.size h 1 ≤ 64)

/-- The micro-batch sizes recorded on a lane: the oldest not yet named by a SHRECV (R341). -/
def Lane.oldest (l : Lane) : Nat := (l.sizes[l.sizes.length - l.out]?).getD 0

/-- A notice binding of a partition: module, die, valid, queue (R345). -/
def Part.binding (p : Part) (i : Nat) : Nat × Nat × Bool × Nat :=
  (p.d (256 + 16 * i) 2 % 1024, p.d (258 + 16 * i) 1 % 4, p.d (259 + 16 * i) 1 % 2 == 1, p.d (260 + 16 * i) 2)

/-- The hatch queue a name selects (R375). -/
def State.hatchOf (s : State) (name : Nat) : Hatch := mget Hatch.zero (name % 256) (s.die (name / 256 % 4)).hatch

/-! ## Causes at a group's own issue -/

/-- What a KV or shuttle instruction finds in its handle and its lane: checked before the bundle's first group, and again at its
own (R88, R333, R341). -/
def handleCauses (x : Core) (i : Instr) : List Cause :=
  let y := x.ctx
  let hd := fun p => y.handle (hOf p)
  let in1 := fun h => spanIn x (Handle.lvl h) (wholeSpan h)
  match i with
  | .kvapp _ _ a _ _ => fmtCauses (hd a) ++ need (appendHandleOk (hd a)) (plain 0x128) ++ need (in1 (hd a)) (plain 0x129)
  | .attn _ _ a _ _ _ => fmtCauses (hd a) ++ need (queryHandleOk (hd a)) (plain 0x128) ++ need (in1 (hd a)) (plain 0x129)
  | .shsend _ _ a _ cel =>
    let l := y.lane cel
    fmtCauses (hd a) ++ need (decide (l.out ≠ l.perm)) (plain 0x140) ++ need (queryHandleOk (hd a) && in1 (hd a)) (plain 0x142)
  | .shrecv _ _ _ cel => need ((y.lane cel).out != 0) (plain 0x141)
  | _ => []

/-- The other causes of the T class but copies (R306, R333, R341, R346, R367, R377). A row or stash handle with BASE bits above its level
gives cause 0x101 where its extent is not empty, and not R217's 0x080: DESIGN CHOICE (notes/assumptions/108.md). -/
def tileCausesT (s : State) (c : Nat) (i : Instr) : List Cause :=
  let x := s.core c
  let y := x.ctx
  let hd := fun p => y.handle (hOf p)
  let in1 := fun h => spanIn x (Handle.lvl h) (wholeSpan h)
  match i with
  | .rcmp _ _ a b k sh sth _ rbase =>
    let ha := hd a
    let hb := hd b
    let hs := y.handle sh.toNat
    let n := Handle.size ha 1
    let need8 := 8 * ceilDiv n 8
    fmtCauses ha ++ fmtCauses hb ++ (if sth then fmtCauses hs else []) ++
    need (rowHandleOk ha && rowHandleOk hb && Handle.fmt hb == Handle.fmt ha && Handle.size hb 0 == Handle.size ha 0 &&
      decide (need8 ≤ Handle.size hb 1)) (plain 0x100) ++
    need (arrayOk x (y.val k) 2 (2 * n) && in1 ha && in1 hb && (!sth || in1 hs)) (plain 0x101) ++
    need (decide (8 * rbase.toNat + need8 ≤ 4096)) (plain 0x103) ++
    need (!sth || stashOk hs) (plain 0x104)
  | .rrst _ _ a b k rbase =>
    let ha := hd a
    let hb := hd b
    let l := bvField (y.val k) 0 16
    fmtCauses ha ++ fmtCauses hb ++
    need (rowHandleOk ha && rowHandleOk hb && Handle.fmt hb == Handle.fmt ha && Handle.size hb 0 == Handle.size ha 0 &&
      decide (l ≤ Handle.size ha 1)) (plain 0x100) ++
    need (in1 ha && in1 hb) (plain 0x101) ++ need (decide (l + 8 * rbase.toNat ≤ 4096)) (plain 0x103)
  | .rpred _ _ a b k _ _ _ =>
    let n := (y.val k).toNat
    need (arrayOk x (y.val a) 4 (4 * n) && arrayOk x (y.val b) 2 (2 * n)) (plain 0x101) ++
      need (decide (1 ≤ n) && decide (n ≤ 4096)) (plain 0x102)
  | .rset _ _ a b k _ =>
    let f := (y.val b).toNat
    let n := (y.val k).toNat
    need (arrayOk x (y.val a) 2 (if n = 0 then 0 else 2 * (f + n))) (plain 0x101) ++ need (decide (f + n ≤ 4096)) (plain 0x102)
  | .rcnt _ _ _ a b sl =>
    if sl = 2#2 then need (decide (bvField (y.val a) 0 16 ≤ 4096)) (plain 0x102)
    else
      let n := (y.val b).toNat
      need (arrayOk x (y.val a) 2 (2 * n)) (plain 0x101) ++ need (decide (1 ≤ n) && decide (n ≤ 4096)) (plain 0x102)
  | .kvapp _ _ _ b _ => need (arrayOk x (y.val b) 8 32) (plain 0x129)
  | .kvappGap _ _ a b k _ =>
    let n := (y.val k).toNat
    need (decide (n ≤ 64) && arrayOk x (y.val a) 8 (8 * n) && arrayOk x (y.val b) 8 32) (plain 0x129)
  | .kvfill _ _ a _ k _ => need (arrayOk x (y.val a) 16 24 && decide ((y.val k).toNat ≤ 1048576)) (plain 0x129)
  | .attn _ _ a b k _ =>
    let q := Handle.size (hd a) 1
    need (arrayOk x (y.val b) 16 (32 * q) && arrayOk x (y.val k) 256 (1024 * q)) (plain 0x129)
  | .shsend _ _ a b _ => need (arrayOk x (y.val b) 16 (32 * Handle.size (hd a) 1)) (plain 0x143)
  | .shrecv _ _ a cel =>
    let l := y.lane cel
    need (l.out == 0 || arrayOk x (y.val a) 256 (1024 * l.oldest)) (plain 0x143)
  | .exitn _ _ a b =>
    let n := (y.val b).toNat
    need (decide (n ≤ 15) && ((s.part x.part).binding n).2.2.1) (plain 0x144) ++ need (arrayOk x (y.val a) 64 64) (plain 0x145)
  | .opbpostArm _ _ a b cnt =>
    need (decide ((y.val a).toNat < (s.part x.part).opbcnt) && (!cnt || bvField (y.val b) 16 48 == 0)) (plain 0x169)
  | .opbpostDec _ _ a b =>
    let n := (y.val b).toNat
    need (decide ((y.val a).toNat < (s.part x.part).opbcnt) && decide (1 ≤ n) && decide (n ≤ 65535)) (plain 0x169)
  | .hqpush _ _ a b =>
    let n := (y.val a).toNat
    let h := s.hatchOf n
    need (decide (n < 1024) && h.cfg.getLsbD 63 && !h.cfg.getLsbD 62 && bvField h.bnd 8 8 == c &&
      bvField h.bnd 16 16 == x.ctag.toNat) (plain 0x16A) ++ need (arrayOk x (y.val b) 64 64) (plain 0x16B)
  | .hqpop _ _ a b =>
    let n := (y.val a).toNat
    let h := s.hatchOf n
    need (decide (n < 1024) && h.cfg.getLsbD 63 && bvField h.bnd 40 8 == c && bvField h.bnd 48 16 == x.ctag.toNat) (plain 0x16A) ++
      need (arrayOk x (y.val b) 64 64) (plain 0x16B)
  | _ => []

/-- The address `d` bundles from `pc`. -/
def relTarget (pc : Nat) (d : Int) : Int := pc + 64 * d
/-- A legal target (R99). -/
def targetOk (t : Int) : Bool := decide (t % 64 = 0) && decide (0 ≤ t) && decide (t ≤ 0x3FFC0)

/-- The count of a LOOP or LOOPL (R105). -/
def loopCount (x : Ctx) : Instr → Nat
  | .loop _ a _ => (x.val a).toNat
  | _ => bvField (x.bypass 7) 16 16

/-- The checks of the sequencer, made only with a true guard (R99, R105, R106). -/
def sequencerCauses (x : Ctx) (i : Instr) : List Cause :=
  let pc := x.seq.pc
  let setup := fun (e : BitVec 12) =>
    let n := loopCount x i
    need (decide (e ≠ 0#12) && decide (pc + 64 * e.toNat ≤ 0x3FFC0) && decide (n ≤ 1048575)) (plain 0x162) ++
      need (!(decide (x.seq.depth ≥ 6) && n != 0)) (plain 0x165)
  if !x.guard (guardOf i) then [] else
    match i with
    | .br _ d | .call _ _ d => need (targetOk (relTarget pc d.toInt)) (plain 0x163)
    | .brc _ _ _ d => need (targetOk (relTarget pc d.toInt)) (plain 0x163)
    | .ret _ a | .jr _ _ a => need (targetOk (x.val a).toNat) (plain 0x163)
    | .loop _ _ e | .loopl _ e => setup e
    | .loopx _ n =>
      let k := n.toNat
      if k = 0 ∨ k > x.seq.depth then [{ plain 0x167 with detail := 1#16 }]
      else need (decide (64 * (vget x.seq.loops (k - 1) LoopEntry.zero).fin.toNat + 64 ≤ 0x3FFC0)) (plain 0x163)
    | _ => []

/-- Does a slot do what S mode must not (R385)? -/
def forbiddenInS (i : Instr) : Bool :=
  match slotInfo i with
  | none => false
  | some f => match f.unit with
    | .va | .sf | .dv | .mx | .tm => true
    | _ => match i with
      | .tld .. | .tst .. | .tldg .. | .tsts .. | .bset .. | .bpush .. | .bpop .. => true
      | .tmv _ _ _ (.b _) | .cpy _ _ (.b _) _ _ _ | .cpy _ _ _ (.b _) _ _ => true
      | _ => false

/-- A level is enabled (R368, R372). -/
def dmrOn (d : Word) (lv : Nat) : Bool := lv == 0 || d.getLsbD (37 + lv)
def Ctx.enabled (x : Ctx) (lv : Nat) : Bool := dmrOn x.dmr lv

/-- Causes of modes and synchronisation (R372, R385, R390, R136). -/
def systemCauses (x : Core) (i : Instr) : List Cause :=
  let priv := need (x.mode == .s) (plain 0x170)
  (if x.mode = .s && !x.stepst.getLsbD 63 && forbiddenInS i then [plain 0x17F] else []) ++
  match i with
  | .sysrd .. | .syswr .. | .eret .. => priv
  | .syncd _ _ _ lv => need (x.ctx.enabled lv.toNat) (plain 0x168)
  | _ => []

/-- Does a slot read a register that has expired (R118)? -/
def readsExpired (x : Ctx) (i : Instr) : Bool :=
  match slotInfo i with
  | some f => f.srcs.any fun p => match p with
    | .s r => x.expired r.val
    | _ => false
  | none => false

/-- A torn read (R173): a direction and its norm are both read while a pair write to it has landed only its norm. -/
def readsTorn (x : Ctx) (i : Instr) : Bool :=
  match slotInfo i with
  | some f => (upFrom 0 16).any fun j =>
      f.srcs.contains (.d (Fin.ofNat 16 j)) && f.srcs.contains (.nrm (Fin.ofNat 16 j)) &&
        x.flights.any fun g => (g.rem == 1 || g.rem == 2) && g.wrs.any fun w => match w with
          | .dir k _ => k == j
          | _ => false
  | none => false

/-- Causes of register state at issue (R118, R173). -/
def registerCauses (x : Ctx) (i : Instr) : List Cause :=
  (if x.afte.getLsbD 7 && readsExpired x i then [slotted 0x038] else []) ++
    (if x.afl.getLsbD 18 && readsTorn x i then [slotted 0x068] else [])

/-- Every cause that a slot finds at its own group. -/
def ownCauses (s : State) (c : Nat) (i : Instr) : List Cause :=
  let x := s.core c
  tagCauses x.ctx i ++ handleCauses x i ++ unitCauses x.ctx i ++ memCauses s c i ++ tileCausesT s c i ++ sequencerCauses x.ctx i ++
    systemCauses x i ++ registerCauses x.ctx i

/-! ## Waits -/

/-- Does a row instruction or KVTENT write tm.y (R295, R322)? -/
def writesTmY : Instr → Bool
  | .rcmp .. | .rrst .. | .rpred .. | .rcnt .. | .kvtent .. => true
  | _ => false

/-- The register a row instruction or KVTENT writes at completion. -/
def tmDest : Instr → Port
  | .rcnt _ _ d .. | .kvtent _ _ d .. => d
  | _ => .z

/-- Instructions of this core that will write tm.y and have not completed: queued, running, or at a cellar. A handler's group waits for
those of the frozen context too, as R295 has it, though a queued row instruction starts only after ERET (R309): DESIGN CHOICE
(notes/assumptions/109.md). -/
def tmPending (s : State) (c : Nat) : List Op :=
  let x := s.core c
  (x.tm ++ x.rowRun.toList ++ s.cellars.toList.flatMap fun k => k.reqs.filter fun o => o.core == c && o.ctag == x.ctag).filter
    fun o => writesTmY o.ins

/-- Does an instruction enter tm's queue (R294)? -/
def entersTm (i : Instr) : Bool := match slotInfo i with
  | some f => f.unit == .tm
  | none => false

/-- Does a CKPT of this core take a snapshot (R401)? -/
def ckptActs (x : Core) : Bool := x.mode == .u && x.inten

/-- The waits for a register that a unit has still to write: mx.y, a tile that mx holds, an ATOM's result, tm.y and RCNT's
destination (R148, R200, R261, R295). -/
def valueWaits (s : State) (c : Nat) (i : Instr) : List Nat :=
  let x := s.core c
  let pend := tmPending s c
  (match slotInfo i with
  | some f =>
    (if (f.unit == .va || f.unit == .sf) && (slotTiles i).any (x.heldTiles.contains ·) then [2] else []) ++
    (if f.srcs.contains (.byp 6) && !x.mxOps.isEmpty then [2] else []) ++
    (if (f.srcs.contains (.byp 7) && !pend.isEmpty) ||
      (pend.any fun o => tmDest o.ins != .z && (f.srcs ++ f.dsts).contains (tmDest o.ins)) then [4] else [])
  | none => []) ++
  (if waitsAtom x i then [4] else [])

/-- The waits for room in tm's queue, a permit, and an empty array (R294, R342, R401). -/
def tileWaits (s : State) (c : Nat) (i : Instr) : List Nat :=
  let x := s.core c
  let g := x.ctx.guard (guardOf i)
  (if g && entersTm i && decide (x.tm.length ≥ 8) then [4] else []) ++
  match i with
  | .shsend _ _ _ _ cel =>
    let l := x.ctx.lane cel
    if g && l.held == 0 && l.out != l.perm then [4] else []
  | .ckpt .. => if g && ckptActs x && !x.mxOps.isEmpty then [4] else []
  | _ => []

/-- Every reason a slot has to wait, SYNCD's apart. -/
def slotWaits (s : State) (c : Nat) (i : Instr) : List Nat :=
  valueWaits s c i ++ unitWaits (s.core c) i ++ memWaits (s.core c) i ++ tileWaits s c i

end Sys2Proof.Machine
end

