-- ==== Sys2Proof/Machine/Domains.lean ====
section
/-! DEFINITION. Machine/Domains.lean: which operations of a core are still to be performed (R257), and the
synchronisation domains (R368 to R370). -/

namespace Sys2Proof.Machine

/-! ## Accesses still to be performed (R257) -/

/-- Operations of a core that have not completed, wherever they stand; POSTs apart. -/
def State.openOps (s : State) (c : Nat) : List Op :=
  let x := s.core c
  x.ag ++ x.ce ++ x.taken ++ x.mxOps ++ x.tm ++ x.rowRun.toList ++ x.stash ++ x.recv ++
    s.cellars.toList.flatMap fun k => (k.reqs.filter fun o => o.core == c) ++ (k.batches.map (·.op)).filter fun o => o.core == c

/-- Is this one of the accesses a FENCE waits for (R257)? -/
def isAccess (i : Instr) : Bool :=
  match i with
  | .exitn .. | .opbpostArm .. | .opbpostDec .. | .rsetCfg .. => false
  | .mstash .. | .munst .. => true
  | i => !isMxOp i

/-- The bobbin a fill names. -/
def fillBob : Instr → Option Nat
  | .tld _ (.b r) _ _ _ | .tldg _ (.b r) _ _ _ => some r.val
  | .tmv _ _ _ (.b r) => some r.val
  | .cpy _ _ _ (.b r) _ _ => some r.val
  | _ => none
/-- The bobbin a store or copy takes its tiles from. -/
def storeBob : Instr → Option Nat
  | .tst _ _ _ _ (.b r) | .tsts _ _ _ _ (.b r) => some r.val
  | .cpy _ _ (.b r) _ _ _ => some r.val
  | _ => none

/-- The state of the source slot that a store, or a copy's next point, reads. -/
def Op.slotState (x : Core) (o : Op) : SlotState :=
  match storeBob o.ins with
  | some b => let bo := x.ctx.bobbin b; bo.slot ((o.slot + o.idx) % bo.cap)
  | none => .landed

/-- A store or copy waits for its source slot to land (R194, R230). -/
def Op.waitsSlot (x : Core) (o : Op) : Bool := !(o.slotState x == .landed || o.slotState x == .failed)

/-- What a trap froze and the handler's own accesses do not wait for: entries of ce's, mx's and tm's queues, ATOMs still to be
performed and stores whose slots have not landed, which go on after ERET (R262, R272, R309). -/
def Core.frozenOps (x : Core) (n : Nat) : List Nat :=
  if x.mode = .s ∧ x.frozenAt ≤ n then
    ((x.ce ++ x.mxOps ++ x.tm ++ (x.ag ++ x.taken).filter fun o => isAtom o.ins || o.waitsSlot x).filter
      fun o => decide (o.id < x.frozenAt)).map (·.id)
  else []

/-- Every access of the core issued before operation `n` has been performed, whether or not the operation itself has completed. A
micro-batch is performed once all its rows are, whether or not its triples have been delivered. -/
def performedBefore (s : State) (c n : Nat) : Bool :=
  let x := s.core c
  let batches := s.cellars.toList.flatMap fun k => k.batches.filter fun b => b.op.core == c
  let inCellar := s.cellars.toList.flatMap fun k => k.reqs.filter fun o => o.core == c
  let own := x.ag ++ x.ce ++ x.taken ++ x.mxOps ++ x.tm ++ x.rowRun.toList ++ x.stash ++ x.recv
  let cold := x.frozenOps n
  (own ++ inCellar).all (fun o => !isAccess o.ins || decide (n ≤ o.id) || o.phase == .performed || cold.contains o.id) &&
    batches.all (fun b => b.done || decide (n ≤ b.op.id)) &&
    x.ctx.flights.all fun f => decide (n ≤ f.id) || !(f.wrs.any fun w => match w with
      | .store .. => true | .load .. => true | _ => false)

/-! ## Domains (R368, R369) -/

def dmrDie (d : Word) : Nat := bvField d 30 2
def dmrClu (d : Word) : Nat := bvField d 25 5
def dmrGid (d : Word) : Nat := bvField d 56 8
/-- The colour of level `lv`, 1 to 4 (R371). -/
def dmrCol (d : Word) (lv : Nat) : Nat := bvField d (4 * lv - 4) 4

/-- What cores of one domain share beside task, level and colour. -/
def dmrPlace (d : Word) (lv : Nat) : Nat :=
  match lv with
  | 1 => dmrClu d | 2 => dmrDie d | 4 => dmrGid d | _ => 0

/-- A domain's key among its task's phase numbers. -/
def domainKey (d : Word) (lv : Nat) : Nat := lv * 2 ^ 20 + dmrCol d lv * 2 ^ 16 + dmrPlace d lv

/-- Does a context of a partition's task with domain register `d` belong to a core's domain at level `lv`? -/
def Core.sharesDomain (x : Core) (lv part task : Nat) (d : Word) : Bool :=
  part == x.part && task == x.task && dmrOn d lv && domainKey d lv == domainKey x.ctx.dmr lv

/-- The cores of a core's domain at level `lv`; a core that has released is none of them. -/
def State.domain (s : State) (c lv : Nat) : List Nat :=
  let x := s.core c
  (upFrom 0 256).filter fun k =>
    let y := s.core k
    y.act == .running && !y.atEnd && x.sharesDomain lv y.part y.task y.ctx.dmr

/-- A pre-empted context in the midst of its step is a member still. -/
def Core.awayMember (x : Core) (lv : Nat) (k : Parked) : Bool := !k.atEnd && x.sharesDomain lv k.part k.task k.dmr

/-- A task control block of a partition. -/
def Tcb.zero : Tcb :=
  { state := .idle, ndie := 0, depc := 0, cause := 0, pass := 0, next := 0, done := 0, fails := 0, opb := 0, rects := [],
    live := [], redo := [], phases := [], remote := [] }
def Part.tcb (p : Part) (h : Nat) : Tcb := mget Tcb.zero h p.tcbs
def Part.setTcb (p : Part) (h : Nat) (t : Tcb) : Part := { p with tcbs := mput Tcb.zero h t p.tcbs }
def State.tcb (s : State) (p h : Nat) : Tcb := (s.part p).tcb h
def State.modTcb (s : State) (p h : Nat) (f : Tcb → Tcb) : State := s.modPart p fun x => x.setTcb h (f (x.tcb h))

/-- The scheduler's view of a TCB that the host reads (R354). No chapter says where in a BAR the scheduler window lies, so that no BAR read
of the model returns it: DESIGN CHOICE (notes/assumptions/113.md). -/
def Tcb.image (t : Tcb) : BitVec 256 :=
  let st := match t.state with
    | .idle => 0 | .waiting => 1 | .ready => 2 | .running => 3 | .done => 4 | .failed => 5
  BitVec.ofNat 256 (st + t.ndie * 2 ^ 8 + t.depc * 2 ^ 16 + (if t.state = .failed then t.cause else 0) * 2 ^ 32 + t.pass * 2 ^ 48
    + t.next * 2 ^ 64 + t.done * 2 ^ 128 + t.fails * 2 ^ 192)

/-- Every member of a core's domain at a level has arrived; at level 4 with a group identifier, the members on other
modules too, whose number the spec leaves to the group launch (notes/assumptions/31.md). -/
def allArrived (s : State) (c lv : Nat) : Bool :=
  let x := s.core c
  ((s.domain c lv).all fun k => (s.core k).arrived == some lv) &&
    (s.cores.toList.all fun y => y.parked.all fun k => !x.awayMember lv k || k.arrived == some lv) &&
    (lv != 4 || dmrGid x.ctx.dmr == 0 ||
      decide (Config.remoteMembers (dmrGid x.ctx.dmr) ≤
        ((s.tcb x.part x.task).remote.filter fun r => r == (dmrCol x.ctx.dmr 4, dmrGid x.ctx.dmr)).length))

/-- A core's phase has ended: its SYNCD may issue, and an open checkpoint logs the number (R369). -/
def Core.phaseOver (x : Core) (n : BitVec 32) : Core :=
  { x with arrived := none, phaseEnd := some n, ckpt := x.ckpt.map fun k => { k with syncs := k.syncs ++ [n], synced := k.synced + 1 } }

/-- The phase number that a rerun's SYNCD is given again: its arrival in the first run stands (notes/assumptions/94.md). -/
def Core.loggedPhase (x : Core) : Option (BitVec 32) :=
  match x.ckpt with
  | some k => if k.rerun = 0 then none else k.syncs[k.synced]?
  | none => none

/-- The phase ends for every member: its number rises by 1, and each member's SYNCD may issue (R369). -/
def endPhase (s : State) (c lv : Nat) : State :=
  let x := s.core c
  let key := domainKey x.ctx.dmr lv
  let n := mget 0#32 key (s.tcb x.part x.task).phases + 1
  let members := s.domain c lv
  let s := s.modTcb x.part x.task fun t =>
    { t with phases := mput 0#32 key n t.phases,
             remote := if lv = 4 then t.remote.filter fun r => !(r == (dmrCol x.ctx.dmr 4, dmrGid x.ctx.dmr)) else t.remote }
  let away (k : Parked) : Parked := if x.awayMember lv k then { k with arrived := none, phaseEnd := some n } else k
  let s := { s with cores := s.cores.map fun y => { y with parked := y.parked.map away } }
  members.foldl (fun s k => s.modCore k fun y => y.phaseOver n) s

/-- End the phases of every domain all of whose members have arrived: what a release or a SETDMR can bring about (R369). -/
def settleDomains (s : State) : State :=
  (upFrom 0 256).foldl (fun s c =>
    match (s.core c).arrived with
    | some lv => if allArrived s c lv then endPhase s c lv else s
    | none => s) s

/-- After what has landed on a core: a change of its membership may complete the set of a domain (R369, R373). -/
def settleLanded (old s : State) (c : Nat) : State :=
  if (s.core c).ctx.dmr = (old.core c).ctx.dmr then s else settleDomains s

/-- The core's SYNCD reaches issue: it arrives once its earlier accesses are performed, and the phase ends with the last
member's arrival (R369, R370). -/
def arrive (s : State) (c lv : Nat) : State :=
  match (s.core c).loggedPhase with
  | some n => s.modCore c fun x => { x with phaseEnd := some n, ckpt := x.ckpt.map fun k => { k with synced := k.synced + 1 } }
  | none =>
  let s := if (s.core c).arrived.isNone && performedBefore s c s.nextId then s.modCore c fun x => { x with arrived := some lv } else s
  if (s.core c).arrived == some lv && allArrived s c lv then endPhase s c lv else s

end Sys2Proof.Machine
end

