-- ==== Sys2Proof/Machine/Seq.lean ====
section
/-! DEFINITION. Machine/Seq.lean: the loop stack, the sequencer's step after the last group of a bundle, and the end of a
schedule cycle (R32, R93 to R95, R98, R100, R102, R114, R147). -/

namespace Sys2Proof.Machine

/-! ## The loop stack (R94, R95) -/

/-- Shift every entry outward and write the new entry into l0. -/
def Seq.push (q : Seq) (e : LoopEntry) : Seq :=
  { q with loops := #v[e, vget q.loops 0 LoopEntry.zero, vget q.loops 1 LoopEntry.zero, vget q.loops 2 LoopEntry.zero,
                       vget q.loops 3 LoopEntry.zero, vget q.loops 4 LoopEntry.zero],
           depth := q.depth + 1 }

/-- Shift every entry inward and clear l5. -/
def Seq.pop (q : Seq) : Seq :=
  { q with loops := #v[vget q.loops 1 LoopEntry.zero, vget q.loops 2 LoopEntry.zero, vget q.loops 3 LoopEntry.zero,
                       vget q.loops 4 LoopEntry.zero, vget q.loops 5 LoopEntry.zero, LoopEntry.zero],
           depth := q.depth - 1 }

def Seq.popN (q : Seq) : Nat → Seq
  | 0 => q
  | n + 1 => Seq.popN q.pop n

/-! ## The end of a bundle (R98, R100) -/

/-- The sequencer after bundle `n` has ended: the innermost loop that ends here goes on to its next iteration, or is
popped and the next outer one is tried (R100); `fuel` bounds the stack's depth. -/
def Seq.loopEnd (q : Seq) (n : Nat) : Nat → Seq
  | 0 => { q with pc := 64 * n + 64, boundary := false }
  | fuel + 1 =>
    let e := vget q.loops 0 LoopEntry.zero
    if q.depth > 0 ∧ e.fin.toNat = n then
      if e.index.toNat + 1 < e.limit.toNat then
        { q with loops := vset q.loops 0 { e with index := e.index + 1 }, pc := 64 * e.start.toNat,
                 boundary := decide (q.pdly = 0) && decide (q.dsc = 0) }
      else Seq.loopEnd q.pop n fuel
    else { q with pc := 64 * n + 64, boundary := false }

/-- The step after a bundle's last group. `xfer` says that the bundle holds a transfer, whose own bundle counts as no delay
slot. Where the pops that LOOPX makes as PDLY reaches 0 expose an entry whose end is that second delay slot, PTGT is the next PC (R98) and
no loop-end step runs for the entry (R100): DESIGN CHOICE (notes/assumptions/103.md). -/
def Seq.bundleEnd (q : Seq) (xfer : Bool) : Seq :=
  let n := q.pc / 64
  let q := { q with grp := 0, fetched := none }
  if q.halt then { q with pc := q.pc + 64, boundary := false }
  else if q.skip ≠ 0 then { q with pc := q.pc + 64 * q.skip + 64, skip := 0, boundary := false }
  else if xfer then q.loopEnd n 7
  else
    let due := q.pdly = 1
    let q := { q with dsc := q.dsc - 1, pdly := q.pdly - 1 }
    if due then { (q.popN q.pops) with pops := 0, pc := 64 * q.ptgt.toNat, boundary := false } else q.loopEnd n 7

/-! ## The end of a schedule cycle -/

/-- One clock passes: the array's cycle, while the context runs or is being saved, and the step clock count in U mode before
END (R198, R215, R408). -/
def Core.clock (x : Core) : Core :=
  { x with mx := if x.mode = .u || x.saving then x.mx.map fun r => { r with left := r.left - 1 } else x.mx
           sclk := if x.mode = .u && !x.ctx.seq.halt then x.sclk + 1 else x.sclk }

/-- The rows of this cycle are read, and a clock and a schedule cycle pass (R32, R147). -/
def Core.tick (x : Core) : Core :=
  (Core.clock { x with ctx := if x.mode = .u then (x.ctx.rowTick false).rowTick true else x.ctx }).advance

/-- The sequencer after a group: `last` says that the group closed its bundle, `xfer` that the bundle holds a transfer. -/
def Seq.groupEnd (q : Seq) (last xfer : Bool) : Seq := if last then q.bundleEnd xfer else { q with grp := q.grp + 1, boundary := false }

/-- The cycle of a group ends. -/
def Core.endCycle (x : Core) (last xfer : Bool) : Core :=
  Core.tick { x with ctx := { x.ctx with seq := x.ctx.seq.groupEnd last xfer } }

end Sys2Proof.Machine
end

