-- ==== Sys2Proof/Machine/Trace.lean ====
section
/-! DEFINITION. Machine/Trace.lean: the trace unit's records (R410, R412, R413, R415). -/

namespace Sys2Proof.Machine

/-- A trace record: TYPE, AUX, SCYC, PC, A32 and B64, with the core and its context tag (R413). -/
def traceRec (x : Core) (c ty aux : Nat) (scyc : Word) (pc a32 b64 : Nat) : BitVec 256 :=
  BitVec.ofNat 256 (ty + c % 2 ^ 16 * 2 ^ 16 + x.ctag.toNat * 2 ^ 32 + aux % 2 ^ 16 * 2 ^ 48 + scyc.toNat * 2 ^ 64
    + pc % 2 ^ 18 * 2 ^ 128 + a32 % 2 ^ 32 * 2 ^ 160 + b64 % 2 ^ 64 * 2 ^ 192)

/-- EN and THR of the block as read. -/
def Trace.en (t : Trace) (i : Nat) : Bool := t.tsb.getLsbD (80 + i)
def Trace.thr (t : Trace) : Nat := bvField t.tsb 96 32

def satDrop (n : Nat) : Nat := min n 0xFFFFFFFF

/-- The unit buffers a record; with a full buffer, between a fault and the next page, or when every page has faulted it only
counts it (R414, R415). -/
def Trace.emit (t : Trace) (r : BitVec 256) : Trace :=
  if !t.on then t
  else if t.buf.length ≥ 64 ∨ t.fault.isSome ∨ t.npg ≤ t.bad then { t with drop := satDrop (t.drop + 1) }
  else { t with buf := t.buf ++ [r] }

/-- Buffer a record of the core, where EN enables its kind; nothing is recorded in S mode (R413). -/
def traceEmit (s : State) (c en ty aux pc a32 b64 : Nat) : State :=
  s.modCore c fun x =>
    if x.mode = .u && (en == 4 || x.trace.en en) then
      { x with trace := x.trace.emit (traceRec x c ty aux x.ctx.scyc pc a32 b64) }
    else x

/-- The page being written faults, or is invalidated: it is left, what is buffered is dropped, and a TFAULT record opens the
next page (R415). -/
def traceFault (s : State) (c cause : Nat) : State :=
  s.modCore c fun x =>
    let t := x.trace
    let n := t.buf.length
    { x with trace := { t with
        buf := [], drop := satDrop (t.drop + n), tflt := satDrop (t.tflt + 1), bad := t.bad + 1, idx := 0,
        page := if t.npg = 0 then t.page else (t.page + 1) % t.npg,
        fault := some (traceRec x c 5 cause x.ctx.scyc x.ctx.seq.pc n t.page) } }

/-- A held group's wait is over: with interlock trace armed, a STALL record gives its clocks and reason (R410). -/
def holdEnd (s : State) (c : Nat) : State :=
  let x := s.core c
  match x.hold with
  | some h =>
    if h.reason = 0 then s else
      let s := if x.trace.armed then traceEmit s c 1 2 h.reason x.ctx.seq.pc h.clocks 0 else s
      s.modCore c fun x => { x with hold := some ⟨0, 0⟩ }
  | none => s

end Sys2Proof.Machine
end

