-- ==== Sys2Proof/Machine/Rollback.lean ====
section
/-! DEFINITION. Machine/Rollback.lean: checkpoints, rollback and reruns (R401 to R404), and how a cause freezes a core (R382,
R384). -/

namespace Sys2Proof.Machine

/-! ## CRC (R403, R423) -/

/-- A reflected CRC register after `n` more bits. -/
def crcBits (poly : Nat) (r : Nat) : Nat → Nat
  | 0 => r
  | n + 1 => crcBits poly (if r % 2 = 1 then (r / 2) ^^^ poly else r / 2) n

/-- A reflected CRC of a byte string, with initial value and final xor all ones. -/
def crcOf (w poly : Nat) (l : List Byte) : Nat :=
  (l.foldl (fun r b => crcBits poly (r ^^^ b.toNat) 8) (2 ^ w - 1)) ^^^ (2 ^ w - 1)

/-- CRC-64 with polynomial 0x42F0_E1EB_A9EA_3693. -/
def crc64 (l : List Byte) : Word := BitVec.ofNat 64 (crcOf 64 0xC96C5795D7870F42 l)

/-- Writes in the order their operations issued. -/
def insertSig (w : SigWrite) : List SigWrite → List SigWrite
  | [] => [w]
  | v :: r => if w.id < v.id then w :: v :: r else v :: insertSig w r

/-- The signature of the interval's writes. -/
def signature (l : List SigWrite) : Word :=
  crc64 ((l.foldl (fun a w => insertSig w a) []).flatMap fun w => leBytes w.addr 8 ++ leBytes w.lvl 1 ++ w.data)

/-! ## The checkpoint -/

/-- Open a checkpoint: the shadow store takes the context's state, and the logs begin empty (R401). -/
def openCkpt (s : State) (c : Nat) (mid : Bool) : State :=
  s.modCore c fun x =>
    { x with
      ckn := x.ckn + 1
      ckpt := some { shadow := x.ctx, undo := [], once := [], pos := 0, since := s.nextId + 1, rerun := 0, sigs := [],
                     writes := [], errors := 0, first := s.nextId + 1, flagsIn := [], resume := none, mid := mid,
                     fired := x.trace.fired, failn := x.failn, phase0 := x.phase0, syncs := [], synced := 0, yieldHeld := x.yieldHeld, ending := none } }

/-- An operation that a rollback leaves alone: issued before the CKPT, or performed once and already sent. -/
def survives (k : Ckpt) (sent : Op → Bool) (o : Op) : Bool :=
  decide (o.id < k.first) || (o.orig.isNone && (k.once.any fun r => r.id == o.id) && sent o)

/-- An operation of ag, ce, tm or sy has been sent once part of it has been performed. -/
def opSent (o : Op) : Bool :=
  match o.ins with
  | .cpyl .. => o.idx != 0
  | .post .. => o.phase == .started
  | _ => o.phase == .performed

/-- Discard what a rollback discards (R403): queue entries not sent and everything that is to be repeated. -/
def Core.discardAfter (x : Core) (k : Ckpt) : Core :=
  let f := fun l => l.filter (survives k opSent)
  let old := fun l => l.filter fun (o : Op) => decide (o.id < k.first)
  let all := x.ag ++ x.ce ++ x.taken ++ x.mxOps ++ x.tm ++ x.rowRun.toList ++ x.sy ++ x.stash ++ x.recv
  let y := { x with
    ag := f x.ag, ce := f x.ce, taken := f x.taken, tm := f x.tm, sy := f x.sy, mxq := old x.mxq
    mx := x.mx.filter fun r => decide (r.op.id < k.first)
    rowRun := x.rowRun.filter fun o => decide (o.id < k.first)
    fences := old x.fences
    stash := x.stash.filter (survives k fun o => match o.ins with | .mstash .. => true | _ => false)
    recv := x.recv.filter (survives k fun _ => true) }
  let kept := y.ag ++ y.ce ++ y.taken ++ y.mxOps ++ y.tm ++ y.rowRun.toList ++ y.sy ++ y.stash ++ y.recv
  let gone := all.filter fun o => !(kept.any fun p => p.id == o.id)
  let unsent := fun (r : OnceRec) => if r.st == .pending && gone.any fun o => o.id == r.id then { r with st := OnceSt.unsent } else r
  { y with
    outst := x.outst - (gone.filter fun o => countsOutstanding o.ins && o.ctag == x.ctag).length
    ckpt := x.ckpt.map fun k => { k with once := k.once.map unsent } }

/-- Increments to the context's own flags from operations that will be repeated are dropped: a POST among them is done, and the
operation of a completion increment is no outstanding copy any more. -/
def dropOwnIncrs (s : State) (c : Nat) (k : Ckpt) : State :=
  let x := s.core c
  let own := fun (i : Incr) => i.src == c && i.core == c && i.ctag == x.ctag && decide (k.first ≤ i.srcOp)
  let posts := (s.net.filter fun i => own i && i.post).map (·.srcOp)
  let counted := (s.net.filter fun i => own i && i.counts).length
  let s := { s with net := s.net.filter fun i => !own i }
  s.modCore c fun x =>
    { x with sy := x.sy.filter fun o => !posts.contains o.id
             outst := x.outst - (x.sy.filter fun o => posts.contains o.id).length - counted
             ckpt := x.ckpt.map fun k => { k with once := k.once.map fun r => if posts.contains r.id then { r with st := .done 0 true 0 } else r } }

/-- A held cause that the rerun itself brings about again: a flag that no operation from before the CKPT has raised, an ATOM's
fault, a failed slot, a bobbin instruction's trap (R80, R197, R216, R262). -/
def raisedAgain (k : Ckpt) (h : Held) : Bool :=
  if 0x060 ≤ h.cause ∧ h.cause < 0x067 then !k.shadow.afl.getLsbD (h.cause - 0x060)
  else (decide (0x0A0 ≤ h.cause) && decide (h.cause ≤ 0x0C3)) || (decide (0x0F0 ≤ h.cause) && decide (h.cause < 0x100))

/-- Put the shadow store and the undo log's lines back (R119, R403): every ephemeral copy is discarded, and increments from
elsewhere are delivered again. `k` is the checkpoint as it stands once what is discarded is gone. -/
def restoreShadow (s : State) (c : Nat) (k : Ckpt) : State :=
  let s := dropOwnIncrs (s.modCore c fun x => x.discardAfter k) c k
  let y := { k.shadow with eph := k.shadow.eph.map fun e => e.map fun _ => ⟨0, 0⟩ }
  let y := k.flagsIn.foldl (fun y f => y.bump f.1 f.2) y
  let s := s.modCore c fun x =>
    { x with ctx := y, hold := none, committing := false, eretReq := false, due := [], yielding := none, yielded := none,
             yieldHeld := k.yieldHeld, arrived := none, phaseEnd := none, failn := k.failn, phase0 := k.phase0, trace := { x.trace with fired := k.fired },
             held := x.held.filter fun h => !raisedAgain k h,
             ckpt := x.ckpt.map fun k => { k with pos := 0, since := s.nextId, writes := [], synced := 0, ending := none } }
  let s := k.undo.foldl (fun s e => writeBytes s (.core c) (64 * e.1) (leBytes e.2.toNat 64)) s
  if k.mid then landCycle (s.modCore c fun x => x.endCycle true false) c else s

/-- An uncorrectable error in the core's own state, with a checkpoint open (R403): the interval is run again. The fourth error
that interrupts the reruns retires the core. S mode is left by its ERET alone: there the rollback follows that (R22). -/
def rollback (s : State) (c : Nat) : State :=
  if (s.core c).mode = .s then s.modCore c fun x => { x with rollDue := true } else
  match (s.core c).ckpt with
  | none => s
  | some k =>
    if k.rerun = 0 then
      restoreShadow (s.modCore c fun x => { x with ckpt := some { k with rerun := 1, sigs := [], errors := 0, resume := none } }) c k
    else if k.errors + 1 ≥ 4 then stopCore (s.modCore c Core.closeCkpt) c .retired 0x175
    else restoreShadow (s.modCore c fun x => { x with ckpt := some { k with errors := k.errors + 1 } }) c k

/-- A rerun reaches the interval's end: after the first the interval runs again, after the second both ends are compared
(R403). `h` is the cause that ended it at a report point. -/
def intervalEnd (s : State) (c : Nat) (h : Option Held) : State :=
  match (s.core c).ckpt with
  | none => s
  | some k =>
    let here := ((s.core c).ctx.scyc, signature k.writes)
    if k.rerun = 1 then
      restoreShadow (s.modCore c fun x => { x with ckpt := some { k with rerun := 2, sigs := [here], resume := h } }) c k
    else if k.sigs = [here] then
      s.modCore c fun x => { x with uec := min 255 (x.uec + 1), ckpt := some { k with rerun := 0, sigs := [], writes := [], resume := none } }
    else stopCore (s.modCore c Core.closeCkpt) c .retired 0x175

/-- A rerun is going on. -/
def Core.rerunning (x : Core) : Bool :=
  match x.ckpt with
  | some k => k.rerun != 0
  | none => false

/-! ## Freezing (R382, R384) -/

/-- In a second rerun a pre-emption lands where one ended the first (R403). -/
def Core.endsHere (x : Core) : Bool :=
  match x.ckpt with
  | some k => k.rerun != 2 || k.sigs.map (·.1) == [x.ctx.scyc]
  | none => true

/-- What brings an operation on is still to come from the program: its source slot has not landed, it waits in the copy engine for room,
or behind one that does. -/
def Core.stuck (x : Core) (o : Op) : Bool :=
  ((storeBob o.ins).isSome && o.waitsSlot x) || (o.phase == .queued && x.taken.any fun p => p.id == o.id) ||
    (x.ce.any (fun p => p.id == o.id) && x.taken.any fun p => p.phase == .queued)

/-- A rerun's interval has ended but for operations issued in it: a signature takes every write that they make, and an operation performed
once is over before the reruns are (R403, R404). Those that only the program can bring on are not waited for (notes/assumptions/94.md). -/
def intervalOpen (s : State) (c : Nat) : Bool :=
  let x := s.core c
  match x.ckpt with
  | none => false
  | some k =>
    let drains := fun (o : Op) => match o.ins with | .mdrain .. => x.mx.any fun r => r.op.id == o.id | _ => false
    let once := fun (o : Op) => k.once.any fun r => r.id == o.id && r.st == .pending
    let ops := s.openOps c ++ x.sy ++ (s.notices.map (·.op)).filter (fun o => o.core == c) ++
      (s.parts.toList.flatMap fun p => p.intake.filterMap (·.op)).filter fun o => o.core == c
    k.rerun != 0 && ops.any fun o => decide (k.first ≤ o.id) && !x.stuck o &&
      ((isAccess o.ins && o.phase != .performed) || drains o || once o || o.orig.isSome)

/-- A cause freezes the core; in a rerun it ends the interval instead, and freezes the core once both reruns agree. A pre-emption
that ended the first rerun is requested again for the second. -/
def endInterval (s : State) (c : Nat) (h : Held) (post : Bool) (scyc : Word) : State :=
  let s := intervalEnd s c (if h.async then some h else none)
  let x := s.core c
  if x.rerunning then s.modCore c fun x => { x with preReq := x.preReq || h.cause == 0x178 }
  else if x.act == .retired then s else takeTrap s c h post scyc

/-- A cause freezes the core, or ends a rerun's interval, once the interval's operations have been performed. -/
def freeze (s : State) (c : Nat) (h : Held) (post : Bool) (scyc : Word) : State :=
  if (s.core c).rerunning then
    if intervalOpen s c then s.modCore c fun x => { x with ckpt := x.ckpt.map fun k => { k with ending := some (h, post, scyc) } }
    else endInterval s c h post scyc
  else takeTrap s c h post scyc

/-- The cause that has ended a rerun whose operations were still to be performed. -/
def Core.ending (x : Core) : Option (Held × Bool × Word) := x.ckpt.bind (·.ending)

/-- The held cause that freezes the core at a report point, now. In a second rerun it does so where it ended the first. -/
def Core.reportDue (x : Core) : Option Held :=
  if x.mode = .s then none else
  match x.ckpt with
  | some k => if k.rerun = 2 then
      match k.resume, k.sigs with
      | some _, [e] => if e.1 = x.ctx.scyc then lowestHeld x.held else none
      | _, _ => none
    else lowestHeld x.held
  | none => lowestHeld x.held

/-- A held YIELD is over once the context is pre-empted, by it or by the scheduler: the context then waits for a flag of its mask (R374;
notes/assumptions/115.md). -/
def Core.takeYield (x : Core) : Core :=
  match x.yieldHeld with
  | some m => { x with yieldHeld := none, yielded := if m = 0#32 then x.yielded else some m }
  | none => x

/-- Take the lowest held cause at a report point (R382, R384): the resume group is the one that was due. -/
def takeReport (s : State) (c : Nat) : State :=
  match (s.core c).reportDue with
  | none => s
  | some h =>
    if intervalOpen s c then s else
    let s := if (s.core c).rerunning then intervalEnd s c (some h) else s
    if (s.core c).rerunning || (s.core c).act == .retired then s
    else
      let s := s.modCore c fun x =>
        { (if h.cause = 0x178 ∨ h.cause = 0x179 then x.takeYield else x) with
          held := x.held.erase h, dbgReq := if h.cause = 0x173 ∧ h.detail = 2#16 then none else x.dbgReq }
      takeTrap s c h false (s.core c).ctx.scyc

end Sys2Proof.Machine
end

