-- ==== Sys2Proof/Machine/Issue.lean ====
section
/-! DEFINITION. Machine/Issue.lean: the checks of a bundle before its first group (R31, R41 to R44, R97, R101), what a
group meets at its own issue (R34, R44, R88, R115, R118), and how a slot instruction issues. -/

namespace Sys2Proof.Machine

/-! ## Conditions and the lowest code (R44) -/

/-- A condition found at issue, with the slots that take part in it. -/
structure Found where
  cause : Cause
  mask  : BitVec 8
deriving DecidableEq, Repr

/-- The lowest set bit of a mask. -/
def lowBit (m : BitVec 8) : Nat := ((upFrom 0 8).find? fun i => m.getLsbD i).getD 0

/-- The code of a condition: a parameterised code carries its lowest slot. -/
def Found.code (f : Found) : Nat := f.cause.base + (if f.cause.bySlot then lowBit f.mask else 0)

/-- Conditions of one base are one condition, with all their slots. -/
def joinFound (l : List Found) (f : Found) : Found :=
  { f with mask := (l.filter fun g => g.cause.base == f.cause.base && g.cause.bySlot == f.cause.bySlot).foldl (fun m g => m ||| g.mask) f.mask }

/-- The condition with the numerically lowest code; of equal codes, the first found. -/
def minFound : List Found → Option Found
  | [] => none
  | f :: r => match minFound r with
    | none => some f
    | some g => if g.code < f.code then some g else some f

/-- What a trap record says of the conditions found. -/
def lowest (l : List Found) : Option Held :=
  (minFound (l.map (joinFound l))).map fun f => ⟨f.code, f.mask, f.cause.detail, f.cause.addr, f.cause.ofs, false, false⟩

def posOf (i : Instr) : Nat := ((slotInfo i).map (·.pos)).getD 0

/-- Conditions of one slot. -/
def foundAt (l : List Cause) (i : Instr) : List Found := l.map fun k => ⟨k, slotMask (posOf i)⟩

/-! ## Budgets (R41) -/

/-- The slots of a group whose sources or ports satisfy a test, as a mask. -/
def maskWhere (g : List SlotInfo) (f : SlotInfo → Bool) : BitVec 8 :=
  (g.filter f).foldl (fun m x => m ||| slotMask x.pos) 0

/-- Distinct elements. -/
def distinct : List Port → List Port
  | [] => []
  | p :: r => if r.contains p then distinct r else p :: distinct r

/-- A file's budget: the distinct ports of a kind that the group reads, with extra reads counted and the slots that make them. -/
def overBudget (g : List SlotInfo) (kind : Port → Bool) (budget code : Nat) (extra : Nat := 0) (also : BitVec 8 := 0#8) : List Found :=
  let reads := distinct (g.flatMap fun x => x.srcs.filter kind)
  if reads.length + extra ≤ budget then [] else [⟨plain code, (maskWhere g fun x => x.srcs.any kind) ||| also⟩]

/-- Move ports of a unit (R26). -/
def movePorts : Unit' → Nat
  | .sf | .tm | .ce | .br | .sy => 1
  | _ => 2

def isByp : Port → Bool
  | .byp _ => true
  | _ => false

/-- The handles BSET reads when it lands (R197). -/
def isBset : Instr → Bool
  | .bset .. => true
  | _ => false
def bsetReads (l : List Instr) : Nat := (l.filter isBset).length * 2
def bsetMask (l : List Instr) : BitVec 8 := (l.filter isBset).foldl (fun m i => m ||| slotMask (posOf i)) 0#8

/-- The budgets of one group (R41). -/
def budgetFound (l : List Instr) : List Found :=
  let g := l.filterMap slotInfo
  let bank := fun n => overBudget g (fun p => match p with | .s r => r.val / 16 == n | _ => false) 3 0x01C
  let bobs := distinct (g.flatMap fun x => (x.srcs ++ x.dsts).filter fun p => match p with | .b _ => true | _ => false)
  bank 0 ++ bank 1 ++ bank 2 ++ bank 3 ++
    overBudget g (fun p => match p with | .h _ => true | _ => false) 4 0x01D (bsetReads l) (bsetMask l) ++
    overBudget g (fun p => match p with | .p n => n != 0 | _ => false) 4 0x01D ++
    overBudget g isTile 3 0x01D ++
    overBudget g (fun p => match p with | .d _ => true | _ => false) 2 0x01D ++
    overBudget g (fun p => match p with | .nrm _ => true | _ => false) 2 0x01D ++
    overBudget g (fun p => match p with | .k _ => true | _ => false) 4 0x01D ++
    (if bobs.length ≤ 3 then [] else [⟨plain 0x01D, maskWhere g fun x => (x.srcs ++ x.dsts).any fun p => match p with | .b _ => true | _ => false⟩]) ++
    ((upFrom 0 10).filterMap fun u =>
      let p := Port.byp (Fin.ofNat 10 u)
      let m := g.filter fun x => x.srcs.contains p
      if m.length ≤ 3 then none else some ⟨plain 0x01F, maskWhere m fun _ => true⟩) ++
    g.filterMap fun x => if (x.srcs.filter isByp).length ≤ movePorts x.unit then none else some ⟨plain 0x01E, slotMask x.pos⟩

/-! ## Dependences and destinations (R42, R43) -/

/-- Is this a port whose writes R42 and R43 count? -/
def counted : Port → Bool
  | .z => false
  | .byp _ => false
  | _ => true

/-- Slot `x` writes what slot `y` reads (R42). -/
def dependsOn (x y : SlotInfo) : Bool :=
  let reads := y.srcs ++ (if y.g.p = 0 then [] else [Port.p y.g.p])
  (x.dsts.any fun p => counted p && reads.contains p) ||
    (x.byp && decide (x.unit.num < 10) && reads.contains (.byp (Fin.ofNat 10 x.unit.num)))

/-- Ordered pairs of a list. -/
def pairs {α : Type} : List α → List (α × α)
  | [] => []
  | x :: r => (r.map fun y => (x, y)) ++ pairs r

/-- Reads after writes inside one group (R42). -/
def dependFound (l : List Instr) : List Found :=
  (pairs (l.filterMap slotInfo)).filterMap fun (x, y) =>
    if dependsOn x y then some ⟨plain 0x01A, slotMask x.pos ||| slotMask y.pos⟩ else none

/-- One destination named by two slots of the bundle (R43). -/
def destFound (l : List Instr) : List Found :=
  (pairs (l.filterMap slotInfo)).filterMap fun (x, y) =>
    if x.dsts.any fun p => counted p && y.dsts.contains p then some ⟨plain 0x01B, slotMask x.pos ||| slotMask y.pos⟩ else none

/-! ## The sequencer's bundle checks (R97, R101) -/

/-- Transfers and loop set-ups, which a loop's end bundle must not hold (R101). -/
def isTransferOrSetup : Instr → Bool
  | .br .. | .brc .. | .call .. | .ret .. | .jr .. | .loop .. | .loopl .. | .loopx .. => true
  | _ => false
/-- The transfers of R97. -/
def isTransfer : Instr → Bool
  | .br .. | .brc .. | .call .. | .ret .. | .jr .. | .loopx .. => true
  | _ => false
def isEnd : Instr → Bool
  | .fin .. => true
  | _ => false

/-- Control instructions in a delay slot, and a loop end that must not be one. -/
def placeFound (q : Seq) (l : List Instr) : List Found :=
  (if q.dsc ≠ 0 ∧ l.any (fun i => isTransferOrSetup i || isEnd i) then [⟨plain 0x167, 0x80#8⟩] else []) ++
    (if q.depth > 0 ∧ (vget q.loops 0 LoopEntry.zero).fin.toNat = q.pc / 64 ∧ (q.dsc ≠ 0 ∨ l.any isTransferOrSetup) then
      [⟨plain 0x161, if l.any isTransferOrSetup then 0x80#8 else 0#8⟩] else [])

/-- The checks that a whole bundle of decoded slots meets before its first group, group by group, with tags, bobbins and handles as
they stand then (R44, R88, R146, R333, R341). Of a TLD, TST, TLDG or TSTS only the bobbin is checked here, and its handle at its own group
alone (R233): DESIGN CHOICE (notes/assumptions/106.md). -/
def groupsFound (x : Core) (groups : List (List Instr)) : List Found :=
  (groups.flatMap fun g => budgetFound g ++ dependFound g) ++ destFound groups.flatten ++ placeFound x.ctx.seq groups.flatten ++
    groups.flatten.flatMap fun i => foundAt (tagCauses x.ctx i ++ handleCauses x i) i

/-! ## A group at its own issue -/

/-- What becomes of a group: it issues, it is held for a reason of R410, or it traps. -/
inductive Verdict where
  | go
  | hold (reason : Nat)
  | trap (h : Held)
deriving DecidableEq, Repr

/-- Scalar bank being refreshed in a schedule cycle (R115). -/
def refreshBank (scyc : Word) : Option Nat := if scyc.toNat % 64 = 0 then some (scyc.toNat % 256 / 64) else none

/-- Does the group read the bank being refreshed from the gain cells (R115)? -/
def refreshHit (x : Core) (l : List Instr) : Bool :=
  match refreshBank x.ctx.scyc with
  | none => false
  | some b => x.mode == .u && x.hold.isNone && (l.filterMap slotInfo).any fun f => f.srcs.any fun p => match p with
    | .s r => r.val / 16 == b && (vget x.ctx.eph r.val none).isNone
    | _ => false

/-- Is some slot that an operation's next step reads reserved and not landed? -/
def Ctx.awaitsSlot (x : Ctx) (o : Op) : Bool :=
  (mxClaims o.ins).any fun e => ((x.bobbin e.1).claimed o.id).map (x.bobbin e.1).slot == some .reserved

/-- The oldest queued mx operation, or the next step of an MSTEP, is due to start and a slot it claimed is reserved and not
landed: the core stalls (R195, R205). -/
def mxStall (x : Core) : List Nat :=
  let stall := fun o => if x.mode == .u && x.ctx.awaitsSlot o then [2] else []
  match x.mx, x.mxq with
  | none, o :: _ => stall o
  | some r, _ => if r.step % 2 = 1 then stall r.op else []
  | _, _ => []

/-- The level of a SYNCD that acts and has to wait for its domain. -/
def syncLevel (x : Core) (l : List Instr) : Option Nat :=
  l.findSome? fun i => match i with
    | .syncd g _ _ lv => if x.ctx.guard g && lv != 0#3 && x.phaseEnd.isNone then some lv.toNat else none
    | _ => none

/-- The conditions of a group's own slots. -/
def groupFound (s : State) (c : Nat) (l : List Instr) : List Found := l.flatMap fun i => foundAt (ownCauses s c i) i

/-- What a group of slots meets at its issue, `found` being what the checks of its bundle found: the lowest code of all
(R44), else a wait or a refresh (R34, R115, R195), else it issues. A check of a value that a unit has still to deliver is
made once it has arrived. -/
def groupVerdict (s : State) (c : Nat) (found : List Found) (l : List Instr) : Verdict :=
  let x := s.core c
  let w := l.flatMap (valueWaits s c)
  match lowest (found ++ (if w.isEmpty then groupFound s c l else [])) with
  | some h => .trap h
  | none =>
    match mxStall x ++ groupWaits x l ++ l.flatMap (slotWaits s c) with
    | r :: _ => .hold r
    | [] =>
      if refreshHit x l then .hold 1
      else if (syncLevel x l).isSome then .hold 3
      else .go

/-- Hold a group for one clock (R34). -/
def holdGroup (s : State) (c reason : Nat) (l : List Instr) : State :=
  let s := s.modCore c fun x => { x.clock with hold := some ⟨reason, (x.hold.map (·.clocks)).getD 0 + 1⟩ }
  match syncLevel (s.core c) l with
  | some lv => if reason = 3 ∧ (l.flatMap (slotWaits s c)).isEmpty then arrive s c lv else s
  | none => s

/-- A group reads an expired register with AFTE.EXE = 0: AFL.EX is set in its issue cycle (R118). -/
def noteExpired (s : State) (c : Nat) (l : List Instr) : State :=
  if l.any (readsExpired (s.core c).ctx) then s.modCtx c fun x => x.raise fEX else s

/-! ## Issuing one slot instruction -/

/-- What a slot instruction meets when it is the whole bundle. -/
def loneVerdict (s : State) (i : Instr) : Verdict := groupVerdict s s.cur (groupsFound s.me [[i]]) [i]

/-- The slot acts if its guard is true (R30), and its number is used up. `off` is what it does with a false guard: nothing,
but for the delay-slot marking of transfers (R98). -/
def act (i : Instr) (effect off : State → State) (s : State) : State :=
  let t := if s.ctx.guard (guardOf i) then effect s else off s
  { t with nextId := t.nextId + 1 }

/-- A group's wait is over, and what its issue cycle notes is noted. -/
def release (s : State) (c : Nat) (l : List Instr) : State :=
  (holdEnd (noteExpired s c l) c).modCore c fun x => { x with hold := none }

/-- Issue a slot instruction on the core in focus: as part of a group whose checks have passed, or as a bundle of its own. -/
def issue (i : Instr) (s : State) (effect : State → State) (off : State → State := id) : Host.Outcome State Fault Refusal :=
  if !s.power then .fault .noPower
  else if s.me.committing then .next (act i effect off s)
  else
    match loneVerdict s i with
    | .hold r => .next (holdGroup s s.cur r [i])
    | .trap h => .next (freeze s s.cur h false s.ctx.scyc)
    | .go => .next (act i effect off (release s s.cur [i]))

/-- An event of the module: nothing happens without power. -/
def event (s : State) (effect : State → State) : Host.Outcome State Fault Refusal :=
  if s.power then .next (effect s) else .fault .noPower

end Sys2Proof.Machine
end

