-- ==== Sys2Proof/Machine/Fetch.lean ====
section
/-! DEFINITION. Machine/Fetch.lean: fetching a bundle, its groups, and what the next group of a core meets (R29, R31, R44,
R96, R384). -/

namespace Sys2Proof.Machine

/-- The bundle at a byte address of a core's instruction store. -/
def bundleAt (s : State) (c pc : Nat) : BundleWord := BitVec.ofNat 512 (readNat s (.store c) pc 64)

/-- A slot of a fetched bundle. -/
structure FSlot where
  pos  : Nat
  stop : Bool
  dec  : Dec

def fetchSlots (w : BundleWord) : List FSlot :=
  (upFrom 0 8).map fun i => ⟨i, (slotOf w i).getLsbD 63, decodeSlot i (slotOf w i)⟩

/-- The instruction a slot names. -/
def FSlot.instr (f : FSlot) : Option Instr :=
  match f.dec with
  | .ok i => some i
  | .bad _ i => i
  | _ => none

/-- The groups of the slots (R31): `acc` is the group being gathered. -/
def groupsOf : List FSlot → List Instr → List (List Instr)
  | [], acc => if acc.isEmpty then [] else [acc]
  | f :: r, acc =>
    let acc := acc ++ f.instr.toList
    if f.stop then acc :: groupsOf r [] else groupsOf r acc

/-- What the bits of the slots alone show (R45, R89): illegal slots, no valid slot, no final stop. -/
def encodingFound (l : List FSlot) : List Found :=
  (l.flatMap fun f => match f.dec with
    | .bad why _ => why.map fun e => ⟨slotted e.base, slotMask f.pos⟩
    | _ => []) ++
  match (l.filter fun f => f.dec != .nop).getLast? with
  | none => [⟨plain 0x018, 0#8⟩]
  | some f => if f.stop then [] else [⟨plain 0x019, slotMask f.pos⟩]

/-- The cause of a fetch from `pc`, if it cannot be made (R96). -/
def fetchCause (x : Core) (pc : Nat) : Option Held :=
  let t := vget x.istag (pc / 0x10000) IsTag.empty
  if pc > 0x3FFC0 then some ⟨0x163, 0, 0, BitVec.ofNat 64 pc, 0, false, false⟩
  else if t.st = 2#2 && decide (pc % 0x10000 / 64 < t.len.toNat) then none
  else some ⟨0x164, 0, 0, BitVec.ofNat 64 pc, 0, false, false⟩

/-- The bundle a core issues from: the one it has fetched, or the one it fetches now (R96). -/
def bundleOf (s : State) (c : Nat) : BundleWord := let q := (s.core c).ctx.seq; q.fetched.getD (bundleAt s c q.pc)

/-- What keeps a bundle not yet fetched from being fetched. -/
def Core.fetchFault (x : Core) : Option Held := if x.ctx.seq.fetched.isSome then none else fetchCause x x.ctx.seq.pc

/-- A core fetches the bundle at its program counter, once for all its groups (R96). -/
def fetchBundle (s : State) (c : Nat) : State :=
  let w := bundleOf s c
  if (s.core c).fetchFault.isSome then s
  else s.modCtx c fun x => { x with seq := { x.seq with fetched := some w } }

/-- The groups of the bundle at the program counter. -/
def groupsAt (s : State) (c : Nat) : List (List Instr) := groupsOf (fetchSlots (bundleOf s c)) []

/-- The group due to issue, and whether it is its bundle's last. -/
def nextGroup (s : State) (c : Nat) : List Instr × Bool :=
  let gs := groupsAt s c
  let n := (s.core c).ctx.seq.grp
  (gs.getD n [], decide (gs.length ≤ n + 1))

/-- What the next group of a core meets: the fetch, the checks of its whole bundle before the first group, and its own. -/
def fetchVerdict (s : State) (c : Nat) : Verdict :=
  let x := s.core c
  match x.fetchFault with
  | some h => .trap h
  | none =>
    let slots := fetchSlots (bundleOf s c)
    let found := encodingFound slots ++ (if x.ctx.seq.grp = 0 then groupsFound x (groupsOf slots []) else [])
    groupVerdict s c found (nextGroup s c).1

end Sys2Proof.Machine
end

