-- ==== Sys2Proof/Machine/Engine.lean ====
section
/-! DEFINITION. Machine/Engine.lean: operations that enter an engine's queue (R23, R113, R267), and how their failed and
completed items end. -/

namespace Sys2Proof.Machine

/-- The operation a slot of the core in focus queues: everything it reads is read now (R113). -/
def State.mkOp (s : State) (i : Instr) (a b c f : Word) (ha hb hc : HandleBits) : Op :=
  let x := s.me
  { id := s.nextId, ins := i, core := s.cur, part := x.part, ctag := x.ctag, pc := x.ctx.seq.pc, scyc := x.ctx.scyc,
    cflog := x.ctx.cflog, smode := x.mode == .s, spwcl := x.ctx.spwcl, spwdi := x.ctx.spwdi, a := a, b := b, c := c, f := f,
    ha := ha, hb := hb, hc := hc, slot := 0, phase := .queued, idx := 0, val := 0, data := [], fails := 0, afl := 0, orig := none, mute := false, tag := .void, dead := false, err := none }

/-- One more outstanding copy, where the instruction counts as one (R267). -/
def Core.countOp (x : Core) (i : Instr) : Core := if countsOutstanding i then { x with outst := x.outst + 1 } else x

/-! ## Order logs (R417, R418) -/

/-- The cores of a partition's clusters. -/
def partCores (s : State) (p : Nat) : List Nat := (upFrom 0 256).filter fun c => (s.part p).hasCluster (clusterOf c)

/-- A core's context is saved, or it runs none. -/
def Core.atRest (x : Core) : Bool :=
  x.act == .free || x.act == .stopped || x.act == .retired ||
    (x.act == .running && x.mode == .s && x.ctxBusy.isNone && x.saved != .no)

/-- A replay checkpoint begins: every context of the partition that is not saved is to be pre-empted, and dispatch stops (R416). -/
def startCheckpoint (s : State) (p : Nat) : State :=
  (partCores s p).foldl (fun s c => s.modCore c fun x => if x.atRest then x else { x with preReq := true })
    (s.modPart p fun x => { x with pausing := true })

/-- What the replay store holds of a checkpoint, and of a log record. -/
def Snapshot.content (k : Snapshot) : List Nat :=
  k.mem.flatMap (fun e => [e.1, e.2.toNat]) ++ k.tcbs.flatMap (fun e => [e.1, (Tcb.image e.2).toNat]) ++
    k.hatch.flatMap (fun d => d.2.flatMap fun e => [d.1, e.1, e.2.cfg.toNat, e.2.bnd.toNat, e.2.ptr.toNat]) ++
    k.lens.flatMap fun n => n.2.flatMap fun e => [n.1, e.1, e.2.1, e.2.2]
def LogRec.content : LogRec → List Nat
  | .atom u t n => [0, u, t.toNat, n]
  | .epoch j i e => [1, j, i, e.toNat]
  | .arming h => [2, h]
  | .place h r => [3, h, r.length] ++ r.flatMap fun q => [q.die, q.row, q.col]
  | .dispatch h l c => [4, h, l, c]

/-- Write bytes from a virtual address of a partition; bytes on pages that do not translate are not written. -/
def putVirtual (p : Nat) (va : Nat) (s : State) : List Byte → State
  | [] => s
  | b :: r => putVirtual p (va + 1) (match translate s p (wrap 64 va) true with
    | .ok pa .. => writeByte s .pa pa b
    | .bad _ => s) r

/-- The store holds the partition's checkpoints and logs; how is open (R416, R417; notes/assumptions/99.md). -/
def storeReplay (s : State) (p : Nat) : State :=
  let x := s.part p
  if x.d 170 2 = 0 then s else
    putVirtual p (x.d 176 8) s ((Config.replayBytes (x.ckpts.flatMap Snapshot.content ++ x.logs.flatMap LogRec.content)).take (x.d 184 8))

/-- The log a record belongs to: a die's epochs, the scheduler's, a bank's or unit's atomics. -/
def LogRec.stream : LogRec → Nat
  | .epoch j _ _ => j
  | .arming .. | .place .. | .dispatch .. => 12
  | .atom u _ _ => 13 + u

/-- A replay's event is the logged one. Of an epoch the die and its source count: numbers run on in a replay (notes/assumptions/99.md). -/
def LogRec.same (q r : LogRec) : Bool :=
  match q, r with
  | .epoch j i _, .epoch j' i' _ => j == j' && i == i'
  | q, r => q == r

/-- May this happen now? In a replay it waits for its logged turn; past the end of the logs it runs freely (R418). -/
def logTurn (s : State) (p : Nat) (r : LogRec) : Bool :=
  match (s.part p).replay with
  | none => true
  | some l => match l.find? fun q => q.stream == r.stream with
    | none => true
    | some q => q.same r

/-- Log what happened, where the partition keeps logs, or use up its turn in a replay, whose logs hold it already; a log that has no room
for it ends the period, and a checkpoint is taken at once (R416 to R418). -/
def logNote (s : State) (p : Nat) (r : LogRec) : State :=
  let x := s.part p
  let logs := x.d 170 2 != 0 && !(x.replay.any fun l => l.any r.same)
  let s := s.modPart p fun x =>
    let left := x.replay.map fun l => l.eraseP r.same
    { x with logs := if logs then x.logs ++ [r] else x.logs, replay := if left = some [] then none else left }
  if !logs then s else
    let since := (x.logs.drop ((x.ckpts.getLast?.map (·.logAt)).getD 0)).filter fun q => q.stream == r.stream
    let s := storeReplay s p
    if decide (Config.logRoom (x.d 184 8) r.stream ≤ since.length) && !x.pausing then startCheckpoint s p else s

/-- The bank or atomic unit a place belongs to (R219, R417): a pseudo-channel of HBM, a bank of a scratchpad. -/
def homeUnit (s : State) (sp : Space) (off : Nat) : Nat :=
  let line := physAddr s sp off / 64
  match sp with
  | .core _ => sp.base + line % 32
  | .cluster _ => sp.base + line % 64
  | .die _ => sp.base + line % 256
  | _ => off / 2 ^ 30

/-- How many atomics of a context a log holds. -/
def atomsOf (t : BitVec 16) (l : List LogRec) : Nat := (l.filter fun r => match r with
    | .atom _ u _ => u == t
    | _ => false).length

/-- The log record of a context's next atomic: where it is performed, its tag and sequence number, which in a replay counts from what is
left of the logs (R417, R418). -/
def atomRec (s : State) (o : Op) (sp : Space) (off : Nat) : LogRec :=
  let p := s.part o.part
  .atom (homeUnit s sp off) o.ctag (atomsOf o.ctag p.logs - atomsOf o.ctag (p.replay.getD []))

/-! ## Performed-once operations and reruns (R402 to R404) -/

/-- A performed-once operation is issued while a checkpoint is open: the first run logs it; a rerun repeats without effect
what has been sent before, and performs and logs the rest. A full log closes the checkpoint (R402). -/
def Core.noteOnce (x : Core) (o : Op) : Core × Op :=
  match x.ckpt with
  | none => (x, o)
  | some k =>
    let entry := if k.rerun = 0 then none else k.once[k.pos]?
    match entry with
    | some r =>
      let k := { k with pos := k.pos + 1 }
      if r.st = .unsent then
        ({ x with ckpt := some { k with once := k.once.map fun q => if q.id = r.id then ⟨o.id, .pending⟩ else q } }, o)
      else ({ x with ckpt := some k }, { o with orig := some r.id })
    | none =>
      if k.once.length ≥ 256 then ({ x.closeCkpt with ovf := min 255 (x.ovf + 1) }, o)
      else ({ x with ckpt := some { k with once := k.once ++ [⟨o.id, .pending⟩], pos := k.pos + 1 } }, o)

/-- Put an operation into a queue of the core in focus: one more outstanding copy, and the result log where the operation is
performed once (R267, R402). -/
def submit (s : State) (o : Op) (once : Bool) (put : Core → Op → Core) : State :=
  s.modMe fun x =>
    let (x, o) := if once then x.noteOnce o else (x, o)
    put (x.countOp o.ins) o

/-- An operation that may end now, with its logged result and flags where a rerun repeats it: not before the operation it repeats
has ended (R81, R404). -/
def settled (s : State) (o : Op) : Option Op :=
  match o.orig with
  | none => some o
  | some id =>
    match onceRec s o.core id with
    | some ⟨_, .done v ok fl⟩ => some { o with val := v, fails := if ok then 0 else 1, afl := fl }
    | some _ => none
    | none => some o

/-- Replace the operation of a number in a queue. -/
def replaceOp (o : Op) (l : List Op) : List Op := l.map fun p => if p.id = o.id then o else p
/-- Remove an operation from a queue. -/
def removeOp (id : Nat) (l : List Op) : List Op := l.filter fun p => p.id != id

/-- The operation belongs to the context the core runs. -/
def Op.runs (o : Op) (x : Core) : Bool := o.ctag == x.ctag

/-- A pending fence issued before an operation holds it; one that a trap froze does not hold the handler's (R257, R286). -/
def fencedBefore (x : Core) (o : Op) : Bool := x.fenceOps.any fun f => decide (f.id < o.id) && (x.mode == .u || f.smode || !o.smode)

/-- The bytes of a vector clock, as an ATOM carries them (R254). -/
def clockBytes (v : Vector (BitVec 32) 12) : List Byte := leBytes (packFile v) 48
def clockOf (l : List Byte) : Vector (BitVec 32) 12 := unpackFile 32 12 (leNat l) 0

/-- Die `j` may apply an item that carries clock `v` from die `i` (R254). -/
def clockAllows (s : State) (v : Vector (BitVec 32) 12) (i j : Nat) : Bool :=
  (upFrom 0 12).all fun k => k == i || k == j || serialLe (vget v k 0) (vget (s.die j).vc k 0)

/-- Does a level and location of a core's operation lie on another die (R217, R236)? -/
def offDieAt (core lvl loc : Nat) : Bool :=
  match lvl with
  | 0 => false
  | 1 => loc != 0xFF && loc / 8 != dieOf core
  | 2 => loc != 0xFF && loc != dieOf core
  | _ => true

/-- May an operation reach off its core's die? A list or descriptor may name any place (notes/assumptions/32.md). -/
def Op.offDie (o : Op) : Bool :=
  match o.ins with
  | .tld .. | .tst .. | .tldg .. | .tsts .. => Handle.lvl o.ha == 3
  | .tmv .. => false
  | .cpy _ _ a b c _ => (match a with | .h _ => Handle.lvl o.ha == 3 | _ => false) || (match b with | .h _ => Handle.lvl o.hb == 3 | _ => false) ||
      c != .z
  | .cpyl .. | .ovl .. | .mstash .. | .munst .. => true
  | .hqpush .. | .hqpop .. => o.a.toNat / 256 != dieOf o.core
  | .atomAdd _ _ _ _ _ _ l .. | .atomInc _ _ _ _ _ _ l .. | .atomDec _ _ _ _ _ _ l .. | .atomMin _ _ _ _ _ _ l .. => l == .hbm
  | .atomMax _ _ _ _ _ _ l .. | .atomAnd _ _ _ _ _ _ l .. | .atomOr _ _ _ _ _ _ l .. | .atomXor _ _ _ _ _ _ l .. => l == .hbm
  | .atomXchg _ _ _ _ _ _ l .. | .atomCas _ _ _ _ _ _ _ l .. => l == .hbm
  | .kvapp .. | .kvappGap .. | .kvcomAcc .. | .kvcomSet .. | .kvtent .. | .kvroll .. | .kvrscl .. | .kvfill .. => true
  | .attn .. | .shsend .. | .shrecv .. => true
  | _ => false

/-- An operation sends an increment other than its completion's. To its own context it is delivered again in a rerun and
dropped with the run that the rollback undid; to any other it is sent once (R403, R404). -/
def sendOp (s : State) (o : Op) (fromDie core ctag flag amt : Nat) (post : Bool) : State :=
  let own := core == o.core && ctag == o.ctag.toNat
  if (if own then leftToRerun s o else o.orig.isSome) then s
  else sendIncr s fromDie core (BitVec.ofNat 16 ctag) flag amt o.core o.id post

/-- A failed item: a record and the flag left alone; the operation is one failure further (R280). -/
def failItem (s : State) (op : Op) (cause ofs idx : Nat) : State := recordFailure s op (failKind op.ins) cause ofs idx

/-- Raise an operation's flags as it ends; what a rerun repeats raises them there (R79, R81, R404). -/
def raiseOp (s : State) (op : Op) : State :=
  if leftToRerun s op then s else deliverFlags s op.core op.ctag op.id op.afl (slotMask (posOf op.ins))

/-- The CEL bit of a request. -/
def celOf : Instr → Bool
  | .kvapp _ _ _ _ c | .kvappGap _ _ _ _ _ c | .kvcomAcc _ _ _ _ c | .kvcomSet _ _ _ _ c | .kvtent _ _ _ _ c => c
  | .kvroll _ _ _ c | .kvrscl _ _ _ _ c | .kvfill _ _ _ _ _ c | .attn _ _ _ _ _ c | .shsend _ _ _ _ c | .shrecv _ _ _ c => c
  | _ => false

/-- The cellar a request names (R311). -/
def cellarOf (o : Op) : Nat := 2 * dieOf o.core + (if celOf o.ins then 1 else 0)

/-- The die of a cellar unit's stack (R3). -/
def cellarDie (n : Nat) : Nat := 4 + n

/-- Does a cellar end this request or delivery (R314, R343)? -/
def endsInCellar : Instr → Bool
  | .kvapp .. | .kvappGap .. | .kvcomAcc .. | .kvcomSet .. | .kvtent .. | .kvroll .. | .kvrscl .. | .kvfill .. | .attn .. | .shrecv .. => true
  | _ => false

/-- The die an operation's completion increment leaves: its cellar's for a request or delivery, else its core's (R254, R314). -/
def Op.endDie (o : Op) : Nat := if endsInCellar o.ins then cellarDie (cellarOf o) else dieOf o.core

/-- EXITN is ordered after nothing but earlier notices (R347). -/
def isExitn : Instr → Bool
  | .exitn .. => true
  | _ => false

/-- An operation all of whose items are done completes: its flags rise and its completion increment is sent, until whose arrival it
stays one of its context's outstanding copies (R267, R271, R281). -/
def completeOp (s : State) (op : Op) : State :=
  let s := raiseOp (onceDone s op) op
  match if leftToRerun s op then none else flagOf op.ins with
  | some f => sendIncr s op.endDie op.core op.ctag f 1 op.core op.id false (countsOutstanding op.ins) (isExitn op.ins)
  | none => dropOutstanding s op

/-- End an operation all of whose items are done: with a failed item no completion flag rises (R279, R281). -/
def endOp (s : State) (op : Op) : State :=
  if op.fails = 0 then completeOp s op else dropOutstanding (raiseOp (onceDone s op) op) op

/-! ## Accesses that leave the die (R236, R254) -/

/-- The die of a physical address's home (R236). -/
def homeDie (pa : Nat) : Nat := 4 + field pa 36 3

/-- The die that applies a write to a place; host memory lies on none (R236, R255). -/
def Space.home : Space → Nat → Option Nat
  | .core c, _ | .store c, _ => some (dieOf c)
  | .cluster k, _ => some (k / 8)
  | .die d, _ => some d
  | .pa, a => if bitAt a 51 then none else some (homeDie a)

/-- May a write that leaves die `i` now be applied at a place? It carries the die's clock (R254). -/
def clockLets (s : State) (i : Nat) (sp : Space) (off : Nat) : Bool :=
  match sp.home off with
  | some j => j == i || clockAllows s (s.die i).vc i j
  | none => true

end Sys2Proof.Machine
end

