-- ==== Sys2Proof/Machine/Matrix.lean ====
section
/-! DEFINITION. Machine/Matrix.lean: the matrix engine (R82 to R85, R192 to R214): issue, start, the steps of an MSTEP,
and retirement. -/

namespace Sys2Proof.Machine

/-! ## Issue (R194, R203 to R214) -/

/-- Give a tile a tag; a new tag makes every row resident (R201). -/
def Ctx.mxTag (x : Ctx) (t : Nat) (tag : Tag) : Ctx :=
  if (x.tile t).tag = tag then x else x.modTile t fun y => { y with tag := tag, resid := BitVec.allOnes 64 }

/-- A void destination takes the accumulator's tag (R204, R205). -/
def Ctx.accTag (x : Ctx) (d a b : Port) : Ctx :=
  if x.tagOf d = .void then
    match matMode (x.bobbin (bOf a)) (x.bobbin (bOf b)) with
    | some m => x.mxTag (tOf d) m.acc
    | none => x
  else x

/-- The tag changes an mx operation makes at issue (R142, R204 to R210). An MFMT in place changes its tile's tag there too, and leaves the
residency of its rows alone: DESIGN CHOICE (notes/assumptions/96.md). -/
def Ctx.mxIssueTag (x : Ctx) : Instr → Ctx
  | .mzero _ d fmt => x.mxTag (tOf d) (Tag.ofFmt fmt)
  | .mload _ d a _ => x.mxTag (tOf d) ((mloadTag (x.bobbin (bOf a))).getD .void)
  | .mma _ d a b _ _ _ _ _ => x.accTag d a b
  | .mmat _ d a b _ _ _ _ _ => x.accTag d a b
  | .mstep _ d _ _ _ _ => if x.tagOf d = .void then x.mxTag (tOf d) .fp32 else x
  | .mfmt _ d a _ fmt _ =>
    let t := (mfmtTag (x.tagOf a) fmt).getD .void
    if d = a then x.tagTile (tOf d) t else x.mxTag (tOf d) t
  | _ => x

/-- Make the claims of an mx operation (R194). -/
def Ctx.mxClaim (x : Ctx) (id : Nat) (l : List (Nat × Nat × Bool)) : Ctx :=
  l.foldl (fun x e => x.modBobbin e.1 fun b => if e.2.2 then b.claim id true else b.claimN id e.2.1) x

/-- The tag of the tile an mx operation reads. -/
def Ctx.sourceTag (x : Ctx) (i : Instr) : Tag := ((mxReads i).head?.map fun t => (x.tile t).tag).getD .void

/-- Issue of an mx operation: tags, claims, and a place in mx's queue, with its source's tag as it stands (R142, R194, R198). -/
def mxIssue (i : Instr) (a b c f : Word) (s : State) : State :=
  let once := match i with
    | .mstash .. => true
    | _ => false
  submit s { s.mkOp i a b c f 0 0 0 with tag := s.ctx.sourceTag i } once fun x op =>
    { x with mxq := x.mxq ++ [op], ctx := (x.ctx.mxIssueTag i).mxClaim op.id (mxClaims i) }

/-- A tensor scale: z gives 1.0 (R209, R210). -/
def Ctx.scale (x : Ctx) (p : Port) : Word := if p = .z then 0x3F800000 else x.val p

def execMzero (g : Guard) (d : Port) (fmt : Fmt) (s : State) : Host.Outcome State Fault Refusal :=
  issue (.mzero g d fmt) s (mxIssue (.mzero g d fmt) 0 0 0 0)
def execMload (g : Guard) (d a : Port) (keep : Bool) (s : State) : Host.Outcome State Fault Refusal :=
  issue (.mload g d a keep) s (mxIssue (.mload g d a keep) 0 0 0 0)
def execMma (g : Guard) (d a b c f : Port) (ka kb : Bool) (depth : BitVec 8) (s : State) : Host.Outcome State Fault Refusal :=
  issue (.mma g d a b c f ka kb depth) s fun s => mxIssue (.mma g d a b c f ka kb depth) 0 0 (s.ctx.val c) (s.ctx.val f) s
def execMmat (g : Guard) (d a b c f : Port) (ka kb : Bool) (depth : BitVec 8) (s : State) : Host.Outcome State Fault Refusal :=
  issue (.mmat g d a b c f ka kb depth) s fun s => mxIssue (.mmat g d a b c f ka kb depth) 0 0 (s.ctx.val c) (s.ctx.val f) s
def execMmask (g : Guard) (a b : Port) (s : State) : Host.Outcome State Fault Refusal :=
  issue (.mmask g a b) s fun s => mxIssue (.mmask g a b) (s.ctx.val a) (s.ctx.val b) 0 0 s
def execMdrain (g : Guard) (d a b : Port) (rm : Rnd) (s : State) : Host.Outcome State Fault Refusal :=
  issue (.mdrain g d a b rm) s fun s => mxIssue (.mdrain g d a b rm) 0 (s.ctx.scale b) 0 0 s
def execMstep (g : Guard) (d a b c : Port) (steps1 : BitVec 5) (s : State) : Host.Outcome State Fault Refusal :=
  issue (.mstep g d a b c steps1) s (mxIssue (.mstep g d a b c steps1) 0 0 0 0)
def execMstash (g : Guard) (d a b c : Port) (s : State) : Host.Outcome State Fault Refusal :=
  issue (.mstash g d a b c) s fun s => mxIssue (.mstash g d a b c) 0 (s.ctx.val b) (s.ctx.val c) 0 s
def execMunst (g : Guard) (d a b c : Port) (s : State) : Host.Outcome State Fault Refusal :=
  issue (.munst g d a b c) s fun s => mxIssue (.munst g d a b c) 0 (s.ctx.val b) (s.ctx.val c) 0 s
def execMfmt (g : Guard) (d a b : Port) (fmt : Fmt) (rm : Rnd) (s : State) : Host.Outcome State Fault Refusal :=
  issue (.mfmt g d a b fmt rm) s fun s => mxIssue (.mfmt g d a b fmt rm) 0 (s.ctx.scale b) 0 0 s

/-- MQRY's value (R211). -/
def mqryWord (x : Ctx) (a : Port) (sl : Nat) : Word :=
  match sl with
  | 0 => (x.tile (tOf a)).resid | 1 => x.drow | _ => x.dcol

def execMqry (g : Guard) (e : Bool) (d a : Port) (sl : BitVec 3) (s : State) : Host.Outcome State Fault Refusal :=
  issue (.mqry g e d a sl) s fun s => s.result .mx 5 2 e d (mqryWord s.ctx a sl.toNat) 0#8
/-- MSYNC has waited; it does nothing else (R212). -/
def execMsync (g : Guard) (s : State) : Host.Outcome State Fault Refusal :=
  issue (.msync g) s id

/-! ## Operands of a running operation (R191, R192) -/

/-- A byte of core scratchpad at an offset that R192 computes. -/
def scaleByte (s : State) (c off : Nat) : Byte := if off < 0x200000 then readByte s (.core c) off else Config.scaleBeyond off

/-- Element (r, col) of a bobbin's slot, as its bits (R191). -/
def slotElem (s : State) (c : Nat) (b : Bobbin) (slot r col : Nat) : Nat :=
  let p := b.nibbleOf r col
  let w := (b.fmt.map fmtWidth).getD 8
  if w ≥ 8 then readNat s (.core c) (b.slotAddr slot + p / 2) (w / 8)
  else (nibOf (readByte s (.core c) (b.slotAddr slot + p / 2)) p)

/-- Scale and zero point of group `g` of line `j` in slot `i`, `per` groups a line (R192). -/
def slotScale (s : State) (c : Nat) (b : Bobbin) (i j per g : Nat) : FV × Int :=
  let n := i * b.sst + j * per + g
  let sc := b.sbo.toNat + 2 * n
  let lo := (scaleByte s c sc).toNat
  let hi := (scaleByte s c (sc + 1)).toNat
  (unpack .f16 (lo + 256 * hi), sextNat 8 (scaleByte s c (b.zbo.toNat + n)).toNat)

/-- The signed value of an integer code of a format. -/
def codeInt (f : Option Fmt) (x : Nat) : Int :=
  match f with
  | some .i4 | some .g4 => sextNat 4 x
  | _ => sextNat 8 x

/-- What one output element of a matrix multiply needs: the K operand values of its row and column, and which positions are
live. -/
structure MatIn where
  mode : MMode
  fa   : Option Fmt
  fb   : Option Fmt
  fz   : Bool
  g    : Nat
  ka   : List Nat
  kb   : List Nat
  live : List Bool
  sa   : List (FV × Int)
  sb   : List (FV × Int)

/-- The exact product at one position; a masked one is +0 (R83). -/
def matProd (m : MatIn) (p : Nat × Nat × Bool) : FV :=
  if p.2.2 then FV.mul (unpackFz m.fz (m.fa.getD .f32) p.1) (unpackFz m.fz (m.fb.getD .f32) p.2.1) else .fin false 0 0

/-- Split into pieces of `n`; `fuel` pieces. -/
def pieces {α : Type} (n : Nat) : Nat → List α → List (List α)
  | 0, _ => []
  | k + 1, l => l.take n :: pieces n k (l.drop n)

/-- One rounded accumulation (R82). -/
def accStep (f : Fmt) (a : LaneOut) (p : FV) : LaneOut :=
  let (y, fl) := roundF f .rne false (FV.add .rne (unpack f a.1) p)
  (y, a.2 ||| fl)

/-- +0 added to an accumulator by a chunk or group with every position masked: only −0 changes (R83). -/
def addZero (f : Fmt) (a : LaneOut) : LaneOut := (if a.1 = signBit f then 0 else a.1, a.2)

/-- Are all positions of a chunk or group masked? -/
def allMasked (l : List (Nat × Nat × Bool)) : Bool := l.all fun p => !p.2.2

/-- One chunk accumulated (R82, R83). -/
def chunkStep (m : MatIn) (f : Fmt) (a : LaneOut) (c : List (Nat × Nat × Bool)) : LaneOut :=
  if allMasked c then addZero f a else accStep f a (exactSum (c.map (matProd m)))

/-- One group of a grouped mode (R84). A group sum of 0 is taken as +0 before it meets the scales, so that a product with a negative
scale is −0: DESIGN CHOICE (notes/assumptions/95.md). -/
def groupTerm (fa fb : Option Fmt) (l : List (Nat × Nat × Bool)) (a b : FV × Int) : LaneOut :=
  let pi := l.foldl (fun (t : Int) p => if p.2.2 then t + (codeInt fa p.1 - a.2) * (codeInt fb p.2.1 - b.2) else t) 0
  roundF .f32 .rne false (FV.mul (FV.ofInt pi 0) (FV.mul a.1 b.1))

/-- An output element after accumulation (R82 to R85). -/
def matElem (m : MatIn) (acc : Nat) : LaneOut :=
  let l := m.ka.zip (m.kb.zip m.live)
  match m.mode with
  | .i8 | .i4 =>
    let t := l.foldl (fun (t : Int) p => if p.2.2 then t + codeInt m.fa p.1 * codeInt m.fb p.2.1 else t) 0
    (wrap 32 ((acc : Int) + t), 0#8)
  | .g8 | .g4 =>
    let groups := (pieces m.g (l.length / m.g) l).zip (m.sa.zip m.sb)
    groups.foldl (fun a p => if allMasked p.1 then addZero .f32 a else
      let (t, f) := groupTerm m.fa m.fb p.1 p.2.1 p.2.2
      let (y, f') := accStep .f32 a (unpack .f32 t)
      (y, f ||| f')) (acc, 0#8)
  | .f64 => (pieces 8 (l.length / 8) l).foldl (chunkStep m .f64) (acc, 0#8)
  | _ => (pieces 8 (l.length / 8) l).foldl (chunkStep m .f32) (acc, 0#8)

/-- Everything an MMA, MMAT or step reads beside D: operand bobbins and slots, transposition, masks, depth. -/
structure MatOp where
  ba   : Bobbin
  bb   : Bobbin
  ia   : Nat
  ib   : Nat
  tr   : Bool
  roff : Word
  coff : Word
  depth : Nat

/-- Output row `m` of a multiply, from the row's earlier value (R204). -/
def matRow (s : State) (c : Nat) (o : MatOp) (mode : MMode) (m : Nat) (old : Row) : Row × FlagSet :=
  let k := mode.depth
  let g := grpSize o.ba.grp
  let per := if g = 0 then 0 else k / g
  let fz := (s.core c).ctx.afl.getLsbD 16
  let w := mode.acc.width
  let ka := (upFrom 0 k).map fun j => slotElem s c o.ba o.ia m j
  let sa := (upFrom 0 per).map (slotScale s c o.ba o.ia m per)
  let out := (upFrom 0 mode.ncols).map fun n =>
    let kb := (upFrom 0 k).map fun j => if o.tr then slotElem s c o.bb o.ib n j else slotElem s c o.bb o.ib j n
    let live := (upFrom 0 k).map fun j => !o.roff.getLsbD m && !o.coff.getLsbD n && (o.depth == 0 || decide (j < o.depth))
    matElem ⟨mode, o.ba.fmt, o.bb.fmt, fz, g, ka, kb, live, sa, (upFrom 0 per).map (slotScale s c o.bb o.ib n per)⟩ (laneAt old w n)
  (packRow w (out.map (·.1)), joinFlags out)

/-! ## Start (R194, R195, R198, R201, R204 to R210, R214) -/

/-- The rows of a tile that are resident, and the non-resident mask. -/
def Tile.residRows (t : Tile) : List Nat := (upFrom 0 64).filter fun m => t.resid.getLsbD m
def Tile.nr (t : Tile) : Word := ~~~t.resid

/-- Compute rows of a tile, one by one: the new rows and the flags. -/
def mxRows (rows : List Nat) (f : Nat → Row × FlagSet) : Map Row × FlagSet :=
  let l := rows.map fun m => (m, f m)
  (l.map fun e => (e.1, e.2.1), l.foldl (fun a e => a ||| e.2.2) 0#8)

/-- One lane converted with a scale and one rounding (R209, R210). -/
def scaleLane (src : Tag) (fmt : Fmt) (rm : Rnd) (sat8 : Bool) (t : Word) (v : Nat) : LaneOut :=
  roundMode fmt rm sat8 (FV.mul (src.valueOf v) (unpack .f32 (bvField t 0 32)))

/-- A row converted lane by lane. -/
def scaleRow (src : Tag) (fmt : Fmt) (rm : Rnd) (sat8 : Bool) (t : Word) (r : Row) : Row × FlagSet :=
  let out := (lanes r src.width src.lanes).map (scaleLane src fmt rm sat8 t)
  (packRow (fmtWidth fmt) (out.map (·.1)), joinFlags out)

/-- The operand slots of a multiply or step. -/
def matOp (x : Ctx) (o : Op) (a b : Port) (tr : Bool) (depth : Nat) : MatOp :=
  let ba := x.bobbin (bOf a)
  let bb := x.bobbin (bOf b)
  ⟨ba, bb, (ba.claimed o.id).getD 0, (bb.claimed o.id).getD 0, tr, o.c, o.f, depth⟩

/-- A multiply's rows (R204). -/
def mmaRun (s : State) (c : Nat) (o : Op) (d a b : Port) (tr : Bool) (depth : Nat) : MxRun :=
  let x := (s.core c).ctx
  let t := x.tile (tOf d)
  let m := matOp x o a b tr depth
  match matMode m.ba m.bb with
  | none => ⟨o, 1, 0, 0, [], 0#8⟩
  | some mode =>
    let (rows, f) := mxRows t.residRows fun r => matRow s c m mode r (vget t.rows r 0)
    ⟨o, mode.occ, 0, t.nr, rows, f⟩

/-- One step of an MSTEP on the rows as they stand (R205). -/
def mstepRows (s : State) (c : Nat) (o : Op) (a b cc : Port) (rows : Map Row) : Map Row × FlagSet :=
  let x := (s.core c).ctx
  let m := { matOp x o a b false 0 with roff := 0, coff := 0 }
  let bd := x.bobbin (bOf cc)
  let di := (bd.claimed o.id).getD 0
  let rst := if m.ba.sb then readNat s (.core c) (m.ba.sideAddr m.ia) 8 else 0
  match matMode m.ba m.bb with
  | none => (rows, 0#8)
  | some mode =>
    let out := rows.map fun (r, v) =>
      let v := if bitAt rst r then 0 else v
      let g := unpack .f32 (slotElem s c bd di 0 r)
      let dec := (lanes v 32 64).map fun y => roundF .f32 .rne false (FV.mul g (unpack .f32 y))
      let (w, f) := matRow s c m mode r (packRow 32 (dec.map (·.1)))
      (r, w, joinFlags dec ||| f)
    (out.map fun (e : Nat × Row × FlagSet) => (e.1, e.2.1), out.foldl (fun f (e : Nat × Row × FlagSet) => f ||| e.2.2) 0#8)

/-- A row of MDRAIN: columns that DCOL masks off are not converted, and raise nothing (R209). -/
def drainLanes (src : Tag) (fmt : Fmt) (rm : Rnd) (sat8 : Bool) (t dcol : Word) (r : Row) : Row × FlagSet :=
  let out := (upFrom 0 src.lanes).map fun n =>
    if dcol.getLsbD n then (0, 0#8) else scaleLane src fmt rm sat8 t (laneAt r src.width n)
  (packRow (fmtWidth fmt) (out.map (·.1)), joinFlags out)

/-- The array takes an operation whose slots have landed. What it converts has the tag its source had at issue (R142). AFL.FZ8 and AFL.SAT8
are read now, for the whole operation, and MFMT writes the rows of D that are resident in A, whatever D's own residency: DESIGN CHOICE
(notes/assumptions/96.md). -/
def mxBegin (s : State) (c : Nat) (o : Op) : State :=
  let x := (s.core c).ctx
  let sat8 := x.afl.getLsbD 17
  let put := fun (s : State) (r : MxRun) => s.modCore c fun y => { y with mx := some r, mxq := y.mxq.tail }
  match o.ins with
  | .mma _ d a b _ _ _ _ depth => put s (mmaRun s c o d a b false depth.toNat)
  | .mmat _ d a b _ _ _ _ depth => put s (mmaRun s c o d a b true depth.toNat)
  | .mstep _ d a b cc _ =>
    let t := x.tile (tOf d)
    let occ := ((matMode (x.bobbin (bOf a)) (x.bobbin (bOf b))).map MMode.occ).getD 1
    let (rows, f) := mstepRows s c o a b cc (t.residRows.map fun m => (m, vget t.rows m 0))
    put s ⟨o, occ, 0, t.nr, rows, f⟩
  | .mload _ _ a _ =>
    let b := x.bobbin (bOf a)
    let i := (b.claimed o.id).getD 0
    let w := (b.fmt.map fmtWidth).getD 32
    let rows := (upFrom 0 64).map fun m => (m, packRow w ((upFrom 0 (2048 / w)).map fun j => slotElem s c b i m j))
    put s ⟨o, 16, 0, 0, rows, 0#8⟩
  | .mdrain _ d a _ rm =>
    let t := x.tile (tOf a)
    let b := x.bobbin (bOf d)
    let rows := t.residRows.filter fun m => !x.drow.getLsbD m
    let (rows, f) := mxRows rows fun m => drainLanes o.tag (b.fmt.getD .f32) rm sat8 o.b x.dcol (vget t.rows m 0)
    let s := s.modCtx c fun x => x.modBobbin (bOf d) fun b => b.reserve .reserved
    put s ⟨{ o with slot := b.head }, 16, 0, t.nr, rows, f⟩
  | .mfmt _ _ a _ fmt rm =>
    let t := x.tile (tOf a)
    let (rows, f) := mxRows t.residRows fun m => scaleRow o.tag fmt rm sat8 o.b (vget t.rows m 0)
    put s ⟨o, 16, 0, t.nr, rows, f⟩
  | .mstash _ _ a _ _ =>
    let t := x.tile (tOf a)
    let rows := t.residRows.filter fun m => o.c.getLsbD m
    let s := s.modCtx c fun x => x.modTile (tOf a) fun y => { y with resid := y.resid &&& ~~~o.c }
    let data := rows.flatMap fun m => leBytes (vget t.rows m 0).toNat 256
    put s ⟨{ o with f := t.resid &&& o.c, data := data }, max 1 rows.length, 0, 0, [], 0#8⟩
  | .munst _ _ a _ _ => put s ⟨{ o with f := o.c &&& ~~~(x.tile (tOf a)).resid }, 1, 0, 0, [], 0#8⟩
  | _ => put s ⟨o, 1, 0, 0, [], 0#8⟩

/-- The array starts its next operation, or the next step of an MSTEP, once its slots have landed; a failed slot freezes the
core with cause 0x0F4 (R198, R205, R216). An MSTEP's `step` is twice the step that runs, and one more between two steps. -/
def mxStart (s : State) (c : Nat) : State :=
  let x := s.core c
  if x.mode = .s && !x.saving then s else
  let failed := if x.held.any (·.cause == 0x0F4) then s else s.hold c (Held.report 0x0F4 (slotMask 5) 0)
  match x.mx with
  | some r =>
    if r.step % 2 = 0 then s else
    match r.op.ins, mxReady x r.op with
    | .mstep _ _ a b cc _, .yes =>
      let occ := ((matMode (x.ctx.bobbin (bOf a)) (x.ctx.bobbin (bOf b))).map MMode.occ).getD 1
      let (rows, f) := mstepRows s c r.op a b cc r.rows
      s.modCore c fun y => { y with mx := some { r with step := r.step + 1, left := occ, rows := rows, afl := r.afl ||| f } }
    | .mstep .., .failed => failed
    | _, _ => s
  | none =>
    match x.mxq with
    | [] => s
    | o :: _ =>
      match mxReady x o with
      | .yes => mxBegin s c o
      | .failed => failed
      | .wait => s

/-! ## Steps and retirement (R199, R205 to R214) -/

/-- Is the array at the end of an MSTEP's step that is not its last? -/
def stepEnded (r : MxRun) : Bool :=
  r.left == 0 && r.step % 2 == 0 &&
    (match r.op.ins with
    | .mstep _ _ _ _ _ t => decide (r.step / 2 < t.toNat)
    | _ => false)

/-- A step of an MSTEP ends: its input and decay slots pop (R205). -/
def mstepEnd (s : State) (c : Nat) : State :=
  let x := s.core c
  match x.mx with
  | some r =>
    if (x.mode == .u || x.saving) && stepEnded r then
      match r.op.ins with
      | .mstep _ _ a _ cc _ =>
        s.modCore c fun y =>
          { y with mx := some { r with step := r.step + 1 },
                   ctx := (y.ctx.modBobbin (bOf a) fun b => b.release r.op.id).modBobbin (bOf cc) fun b => b.release r.op.id }
      | _ => s
    else s
  | none => s

/-- Land rows in a tile; those of an operation whose tile has become void since are discarded (R142). -/
def Ctx.landRows (x : Ctx) (o : Op) (t : Nat) (rows : Map Row) : Ctx :=
  if o.dead then x else rows.foldl (fun x e => x.setRow t e.1 e.2) x

/-- The tile writes of a retiring operation (R199). -/
def Ctx.mxWrite (x : Ctx) (r : MxRun) : Ctx :=
  match r.op.ins with
  | .mzero _ d _ => x.modTile (tOf d) fun t => Tile.retag t.tag
  | .mload _ d _ _ => (x.modTile (tOf d) fun t => { t with resid := BitVec.allOnes 64 }).landRows r.op (tOf d) r.rows
  | .mma _ d _ _ _ _ _ _ _ | .mmat _ d _ _ _ _ _ _ _ | .mstep _ d _ _ _ _ | .mfmt _ d _ _ _ _ =>
    x.landRows r.op (tOf d) r.rows
  | .mmask .. => { x with drow := r.op.a, dcol := r.op.b }
  | _ => x

/-- Release the claims of a retiring operation on every bobbin (R194). -/
def Ctx.mxRelease (x : Ctx) (o : Op) : Ctx :=
  (mxClaims o.ins).foldl (fun x e => x.modBobbin e.1 fun b => if e.2.2 then b.unkeep o.id else b.release o.id) x

/-- Does the operation write mx.y at retirement (R201, R206 to R210, R213)? -/
def writesMxY : Instr → Bool
  | .mma .. | .mmat .. | .mstep .. | .mdrain .. | .mfmt .. => true
  | _ => false

/-- The elements MDRAIN writes of one row: one for each lane of A, in columns that DCOL does not mask off (R209). -/
def drainRow (s : State) (c : Nat) (op : Op) (b : Bobbin) (m : Nat) (v : Row) (dcol : Word) : State :=
  let w := (b.fmt.map fmtWidth).getD 32
  ((upFrom 0 (min b.cols op.tag.lanes)).filter fun n => !dcol.getLsbD n).foldl (fun s n =>
    writeOwn s c op.id (b.slotAddr op.slot + b.nibbleOf m n / 2) (leBytes (laneAt v w n) (w / 8))) s

/-- MDRAIN's slot is written and lands (R193, R209). -/
def drain (s : State) (c : Nat) (r : MxRun) (d : Port) : State :=
  let x := (s.core c).ctx
  let s := r.rows.foldl (fun s e => drainRow s c r.op (x.bobbin (bOf d)) e.1 e.2 x.dcol) s
  s.modCtx c fun x => x.modBobbin (bOf d) fun b => b.setSlot r.op.slot .landed

/-- The operation the array holds has had all its array cycles. -/
def mxDone (x : Core) : Option MxRun :=
  match x.mx with
  | some r => if (x.mode == .u || x.saving) && r.left == 0 && r.step % 2 == 0 && !stepEnded r then some r else none
  | none => none

/-- Retirement, in the order of R199. Rows that va, sf or dv have to land in the tile hold an operation back before it starts and not at
its retirement, whatever a DTO issued in between may have in flight (R148): DESIGN CHOICE (notes/assumptions/104.md). While a frozen context is being saved its bypass registers are no longer kept (R392). -/
def mxRetire (s : State) (c : Nat) : State :=
  match mxDone (s.core c) with
  | none => s
  | some r =>
    let s := match r.op.ins with
      | .mdrain _ d _ _ _ => drain s c r d
      | _ => s
    let s := s.modCtx c fun x => (x.mxWrite r).mxRelease r.op
    let s := if writesMxY r.op.ins && (s.core c).mode == .u then s.modCtx c fun x => { x with byp := vset x.byp 6 r.nr } else s
    let s := deliverFlags s c r.op.ctag r.op.id r.afl (slotMask 5)
    let stash := match r.op.ins with
      | .mstash .. | .munst .. => [r.op]
      | _ => []
    s.modCore c fun x => { x with mx := none, stash := x.stash ++ stash }

/-! ## Rows of the stash (R213, R214) -/

/-- The rows of a mask, ascending. -/
def maskRows (m : Word) : List Nat := (upFrom 0 64).filter fun r => m.getLsbD r

/-- The virtual address of a stash row (R213). -/
def Op.stashVa (op : Op) (m : Nat) : Nat := (op.b.toNat + 256 * m) % 2 ^ 64

/-- The oldest stash traffic of a kind. -/
def oldestStash (x : Core) (un : Bool) : Option Op :=
  x.stash.find? fun o => match o.ins with
    | .mstash .. => !un
    | _ => un

def execMxOperationStart (c : Nat) (s : State) : Host.Outcome State Fault Refusal := event s fun s => mxStart s c
def execMxOperationRetire (c : Nat) (s : State) : Host.Outcome State Fault Refusal := event s fun s => mxRetire s c
def execMstepStepEnd (c : Nat) (s : State) : Host.Outcome State Fault Refusal := event s fun s => mstepEnd s c

end Sys2Proof.Machine
end

