-- ==== Sys2Proof/Machine/MemAccess.lean ====
section
/-! DEFINITION. Machine/MemAccess.lean: the instructions of ag (R197, R229 to R233, R256 to R262) and what its atomics and
fences do. -/

namespace Sys2Proof.Machine

/-! ## Scalar accesses (R229) -/

def execLds (g : Guard) (e : Bool) (d a c : Port) (sz : BitVec 2) (sx : Bool) (off : BitVec 12) (s : State) :
    Host.Outcome State Fault Refusal :=
  issue (.lds g e d a c sz sx off) s fun s =>
    s.launch .ag 2 1 0#8 [.load (ldsAddr s.ctx a c off).toNat (2 ^ sz.toNat) sx d e]
def execSts (g : Guard) (a b c : Port) (sz : BitVec 2) (off : BitVec 12) (s : State) : Host.Outcome State Fault Refusal :=
  issue (.sts g a b c sz off) s fun s =>
    s.launch .ag 2 1 0#8 [.store (ldsAddr s.ctx a c off).toNat (2 ^ sz.toNat) (s.ctx.val b) s.nextId]

/-! ## Bobbin instructions (R197) -/

def execBset (g : Guard) (d a b : Port) (s : State) : Host.Outcome State Fault Refusal :=
  issue (.bset g d a b) s fun s => s.launch .ag 2 1 0#8 [.bset (bOf d) (s.ctx.val a) (s.ctx.val b)]
def execBpush (g : Guard) (d a : Port) (s : State) : Host.Outcome State Fault Refusal :=
  issue (.bpush g d a) s fun s => s.launch .ag 2 1 0#8 [.bpush (bOf d) (s.ctx.val a) s.nextId]
def execBpop (g : Guard) (d a : Port) (s : State) : Host.Outcome State Fault Refusal :=
  issue (.bpop g d a) s fun s => s.launch .ag 2 1 0#8 [.bpop (bOf d) (s.ctx.val a)]

/-- BQRY's words. -/
def bqryWord (b : Bobbin) (sl : Nat) : Word :=
  match sl with
  | 0 => b.cfg | 1 => b.loc | 2 => b.ptr | _ => BitVec.ofNat 64 (b.zbo.toNat * 2 ^ 32 + b.sbo.toNat)

def execBqry (g : Guard) (e : Bool) (d a : Port) (sl : BitVec 3) (s : State) : Host.Outcome State Fault Refusal :=
  issue (.bqry g e d a sl) s fun s => s.result .ag 2 2 e d (bqryWord (s.ctx.bobbin (bOf a)) sl.toNat) 0#8

/-! ## Tile transfers at issue (R230, R233) -/

/-- Put an operation at the end of ag's queue. -/
def putAg (x : Core) (o : Op) : Core := { x with ag := x.ag ++ [o] }

/-- A fill reserves the slot at HEAD and enters ag's queue (R193). -/
def issueFill (i : Instr) (d : Port) (ha : HandleBits) (b : Word) (s : State) : State :=
  let o := { s.mkOp i 0 b 0 0 ha 0 0 with slot := (s.ctx.bobbin (bOf d)).head }
  submit s o false fun x o => { putAg x o with ctx := x.ctx.modBobbin (bOf d) fun bo => bo.reserve .reserved }

/-- A store claims the slot at (TAIL + QP) mod CAP and enters ag's queue (R194); to core scratchpad a rerun performs it again (R404). -/
def issueStore (i : Instr) (c : Port) (ha : HandleBits) (b : Word) (s : State) : State :=
  let o := { s.mkOp i 0 b 0 0 ha 0 0 with slot := (s.ctx.bobbin (bOf c)).nextClaim }
  submit s o (Handle.lvl ha != 0) fun x o => { putAg x o with ctx := x.ctx.modBobbin (bOf c) fun bo => bo.claim o.id false }

def execTld (g : Guard) (d a b c : Port) (s : State) : Host.Outcome State Fault Refusal :=
  issue (.tld g d a b c) s fun s => issueFill (.tld g d a b c) d (tileHandle (s.ctx.handle (hOf a)) (s.ctx.val b)) 0 s
def execTst (g : Guard) (d a b c : Port) (s : State) : Host.Outcome State Fault Refusal :=
  issue (.tst g d a b c) s fun s => issueStore (.tst g d a b c) c (tileHandle (s.ctx.handle (hOf a)) (s.ctx.val b)) 0 s
def execTldg (g : Guard) (d a b c : Port) (s : State) : Host.Outcome State Fault Refusal :=
  issue (.tldg g d a b c) s fun s => issueFill (.tldg g d a b c) d (s.ctx.handle (hOf a)) (s.ctx.val b) s
def execTsts (g : Guard) (d a b c : Port) (s : State) : Host.Outcome State Fault Refusal :=
  issue (.tsts g d a b c) s fun s => issueStore (.tsts g d a b c) c (s.ctx.handle (hOf a)) (s.ctx.val b) s

/-! ## Atomics (R258 to R262) -/

/-- The fields of an ATOM: level and width; none for another instruction. -/
def atomForm : Instr → Option (Lvl × Bool)
  | .atomAdd _ _ _ _ _ _ l q _ | .atomInc _ _ _ _ _ _ l q _ | .atomDec _ _ _ _ _ _ l q _ => some (l, q)
  | .atomMin _ _ _ _ _ _ l q _ _ | .atomMax _ _ _ _ _ _ l q _ _ => some (l, q)
  | .atomAnd _ _ _ _ _ _ l q _ | .atomOr _ _ _ _ _ _ l q _ | .atomXor _ _ _ _ _ _ l q _ => some (l, q)
  | .atomXchg _ _ _ _ _ _ l q _ | .atomCas _ _ _ _ _ _ _ l q _ => some (l, q)
  | _ => none

/-- The E bit of an ATOM. -/
def atomEph : Instr → Bool
  | .atomAdd _ e .. | .atomInc _ e .. | .atomDec _ e .. | .atomMin _ e .. | .atomMax _ e .. => e
  | .atomAnd _ e .. | .atomOr _ e .. | .atomXor _ e .. | .atomXchg _ e .. | .atomCas _ e .. => e
  | _ => false

/-- The new value of an atomic on `w` bits (R260). -/
def atomNew (i : Instr) (w old b c : Nat) : Nat :=
  let sg := fun x => sextNat w x
  match i with
  | .atomAdd .. => (old + b) % 2 ^ w
  | .atomInc .. => if b = 0 ∨ old < b then (old + 1) % 2 ^ w else old
  | .atomDec .. => if old > b then old - 1 else old
  | .atomMin _ _ _ _ _ _ _ _ u _ => if u then min old b else if sg old ≤ sg b then old else b
  | .atomMax _ _ _ _ _ _ _ _ u _ => if u then max old b else if sg old ≤ sg b then b else old
  | .atomAnd .. => old &&& b
  | .atomOr .. => old ||| b
  | .atomXor .. => old ^^^ b
  | .atomXchg .. => b
  | .atomCas .. => if old = c then b else old
  | _ => old

/-- An atomic whose home lies on another die closes the epoch of its own, and carries the clock it leaves with (R254). -/
def issueAtom (i : Instr) (a b c : Word) (s : State) : State :=
  let hbm := (atomForm i).map (·.1) == some .hbm
  let s := if hbm then closeEpoch s (dieOf s.cur) else s
  let data := if hbm then clockBytes (s.die (dieOf s.cur)).vc else []
  let o := { s.mkOp i a b c 0 0 0 0 with data := data }
  submit s o ((atomForm i).map (·.1) != some .core) putAg

def execAtomAdd (g : Guard) (e : Bool) (d a b : Port) (sc : Scope) (lvl : Lvl) (q64 : Bool) (off : BitVec 11) (s : State) :
    Host.Outcome State Fault Refusal :=
  issue (.atomAdd g e d a b sc lvl q64 off) s fun s => issueAtom (.atomAdd g e d a b sc lvl q64 off) (atomAddr s.ctx a off) (s.ctx.val b) 0 s
def execAtomInc (g : Guard) (e : Bool) (d a b : Port) (sc : Scope) (lvl : Lvl) (q64 : Bool) (off : BitVec 11) (s : State) :
    Host.Outcome State Fault Refusal :=
  issue (.atomInc g e d a b sc lvl q64 off) s fun s => issueAtom (.atomInc g e d a b sc lvl q64 off) (atomAddr s.ctx a off) (s.ctx.val b) 0 s
def execAtomDec (g : Guard) (e : Bool) (d a b : Port) (sc : Scope) (lvl : Lvl) (q64 : Bool) (off : BitVec 11) (s : State) :
    Host.Outcome State Fault Refusal :=
  issue (.atomDec g e d a b sc lvl q64 off) s fun s => issueAtom (.atomDec g e d a b sc lvl q64 off) (atomAddr s.ctx a off) (s.ctx.val b) 0 s
def execAtomMin (g : Guard) (e : Bool) (d a b : Port) (sc : Scope) (lvl : Lvl) (q64 uns : Bool) (off : BitVec 11) (s : State) :
    Host.Outcome State Fault Refusal :=
  issue (.atomMin g e d a b sc lvl q64 uns off) s fun s =>
    issueAtom (.atomMin g e d a b sc lvl q64 uns off) (atomAddr s.ctx a off) (s.ctx.val b) 0 s
def execAtomMax (g : Guard) (e : Bool) (d a b : Port) (sc : Scope) (lvl : Lvl) (q64 uns : Bool) (off : BitVec 11) (s : State) :
    Host.Outcome State Fault Refusal :=
  issue (.atomMax g e d a b sc lvl q64 uns off) s fun s =>
    issueAtom (.atomMax g e d a b sc lvl q64 uns off) (atomAddr s.ctx a off) (s.ctx.val b) 0 s
def execAtomAnd (g : Guard) (e : Bool) (d a b : Port) (sc : Scope) (lvl : Lvl) (q64 : Bool) (off : BitVec 11) (s : State) :
    Host.Outcome State Fault Refusal :=
  issue (.atomAnd g e d a b sc lvl q64 off) s fun s => issueAtom (.atomAnd g e d a b sc lvl q64 off) (atomAddr s.ctx a off) (s.ctx.val b) 0 s
def execAtomOr (g : Guard) (e : Bool) (d a b : Port) (sc : Scope) (lvl : Lvl) (q64 : Bool) (off : BitVec 11) (s : State) :
    Host.Outcome State Fault Refusal :=
  issue (.atomOr g e d a b sc lvl q64 off) s fun s => issueAtom (.atomOr g e d a b sc lvl q64 off) (atomAddr s.ctx a off) (s.ctx.val b) 0 s
def execAtomXor (g : Guard) (e : Bool) (d a b : Port) (sc : Scope) (lvl : Lvl) (q64 : Bool) (off : BitVec 11) (s : State) :
    Host.Outcome State Fault Refusal :=
  issue (.atomXor g e d a b sc lvl q64 off) s fun s => issueAtom (.atomXor g e d a b sc lvl q64 off) (atomAddr s.ctx a off) (s.ctx.val b) 0 s
def execAtomXchg (g : Guard) (e : Bool) (d a b : Port) (sc : Scope) (lvl : Lvl) (q64 : Bool) (off : BitVec 11) (s : State) :
    Host.Outcome State Fault Refusal :=
  issue (.atomXchg g e d a b sc lvl q64 off) s fun s => issueAtom (.atomXchg g e d a b sc lvl q64 off) (atomAddr s.ctx a off) (s.ctx.val b) 0 s
def execAtomCas (g : Guard) (e : Bool) (d a b c : Port) (sc : Scope) (lvl : Lvl) (q64 : Bool) (off : BitVec 11) (s : State) :
    Host.Outcome State Fault Refusal :=
  issue (.atomCas g e d a b c sc lvl q64 off) s fun s =>
    issueAtom (.atomCas g e d a b c sc lvl q64 off) (atomAddr s.ctx a off) (s.ctx.val b) (s.ctx.val c) s

/-- Where an ATOM's location is, or the fault that keeps it from being performed (R259, R262). -/
def atomPlace (s : State) (o : Op) (l : Lvl) : Place :=
  if l = .hbm then
    match xlate s o.core o.part o.a.toNat true with
    | .ok pa .. => if bitAt pa 51 then .bad 0x0C3 else .at .pa pa
    | .bad k => .bad k
  else .at (levelSpace o.core l.code.toNat 0xFF) o.a.toNat

/-! ## Fences (R254, R256, R257) -/

/-- A fence of die scope or wider with an access pending off the die closes the die's epoch (R254). -/
def fenceEpoch (sc : Scope) (s : State) : State :=
  let wide := match sc with
    | .core | .cluster => false
    | _ => true
  if wide && (s.openOps s.cur).any Op.offDie then closeEpoch s (dieOf s.cur) else s

/-- A pending fence of the core in focus. -/
def issueFence (i : Instr) (sc : Scope) (s : State) : State :=
  let s := fenceEpoch sc s
  let o := s.mkOp i 0 0 0 0 0 0 0
  s.modMe fun x => { x with fences := x.fences ++ [o] }

def execFence (g : Guard) (sc : Scope) (s : State) : Host.Outcome State Fault Refusal :=
  issue (.fence g sc) s (issueFence (.fence g sc) sc)

/-- Does a fence or an ATOM of this core go on: in U mode, while the context is being saved, or the handler's own (R257, R262, R394)? -/
def Core.goesOn (x : Core) (o : Op) : Bool := x.mode == .u || x.saving || o.smode

/-- The oldest fence that goes on completes once every earlier access is performed (R257). -/
def fenceComplete (s : State) (c : Nat) : State :=
  match (s.core c).fences.find? (s.core c).goesOn with
  | some f => if performedBefore s c f.id then s.modCore c fun x => { x with fences := removeOp f.id x.fences } else s
  | none => s

/-! ## Epoch markers (R254) -/

/-- A pending ATOM whose home is die `j` left the die of its core in an epoch up to `e` (R254). -/
def atomOnWay (s : State) (j : Nat) (e : BitVec 32) (o : Op) : Bool :=
  let home := match xlate s o.core o.part o.a.toNat true with
    | .ok pa .. => homeDie pa == j
    | .bad _ => false
  isAtom o.ins && o.phase == .queued && o.orig.isNone && o.data != [] && serialLe (vget (clockOf o.data) (dieOf o.core) 0) e && home

/-- Something that die `i` sent die `j` in an epoch up to `e` has not been applied: an increment, a notice, an ATOM, an access of the host,
which enters through die 0 (R254, R255). -/
def epochOnWay (s : State) (i j : Nat) (e : BitVec 32) : Bool :=
  (s.net.any fun k => k.die == i && dieOf k.core == j && serialLe (vget k.clock i 0) e) ||
    (s.notices.any fun k => k.phase == .queued && k.mod == s.modno && k.die == j && dieOf k.op.core == i &&
      serialLe (vget (clockOf k.op.data) i 0) e) ||
    ((upFrom (64 * i) 64).any fun c => decide (c < 256) && (s.core c).ag.any (atomOnWay s j e)) ||
    (i == 0 && s.bar.any fun b => serialLe (vget b.clock 0 0) e)

/-- Die `j` applies the `n`-th marker waiting for it: markers of one die in order, behind everything that die sent in the
epoch, when the vector clock allows (R254, R417). -/
def markerApply (s : State) (j n : Nat) : State :=
  let ms := (s.die j).markers
  match ms[n]? with
  | none => s
  | some m =>
    let earlier := (ms.take n).any fun k => k.src == m.src
    let rec' : LogRec := .epoch j m.src m.epoch
    if earlier || epochOnWay s m.src j m.epoch || !clockAllows s m.clock m.src j || !(upFrom 0 8).all (fun p => logTurn s p rec') then s
    else
      let s := s.modDie j fun d => { d with markers := ms.eraseIdx n, vc := vset d.vc m.src m.epoch }
      (upFrom 0 8).foldl (fun s p => logNote s p rec') s

def execFenceComplete (c : Nat) (s : State) : Host.Outcome State Fault Refusal := event s fun s => fenceComplete s c
def execEpochMarkerApply (j n : Nat) (s : State) : Host.Outcome State Fault Refusal := event s fun s => markerApply s j n

end Sys2Proof.Machine
end

