-- ==== Sys2Proof/Machine/Transfer.lean ====
section
/-! DEFINITION. Machine/Transfer.lean: what a queued operation will write and the order of writes to one byte (R231, R281),
TMV, and the events of tile transfers (R193, R194, R230 to R234). -/

namespace Sys2Proof.Machine

/-! ## Where an operation writes -/

/-- A run of bytes of a space: first and one past the last. -/
structure Piece where
  sp : Space
  lo : Nat
  hi : Nat
deriving DecidableEq, Repr

def Piece.meets (a b : Piece) : Bool := decide (a.sp = b.sp) && decide (a.lo < b.hi) && decide (b.lo < a.hi)
def piecesMeet (a b : List Piece) : Bool := a.any fun p => b.any p.meets

/-- The pieces of `n` bytes from address `a` of a side; HBM page by page. -/
def sidePieces (s : State) (op : Op) (sd : Side) (a n : Nat) : List Piece :=
  if n = 0 then [] else
  if sd.lvl = 3 then
    let lo := a / 65536
    (upFrom lo ((a + n - 1) / 65536 - lo + 1)).filterMap fun pg =>
      let x := max a (pg * 65536)
      let y := min (a + n) ((pg + 1) * 65536)
      match xlate s op.core op.part (x % 2 ^ 64) false with
      | .ok pa .. => some ⟨.pa, pa, pa + (y - x)⟩
      | .bad _ => none
  else [⟨levelSpace op.core sd.lvl sd.loc, a, a + n⟩]

/-- `n` elements along dimension 0 from an index of the outer dimensions, moved by `off` bytes. -/
def rowPieces (s : State) (op : Op) (sd : Side) (h : HandleBits) (n j k l : Nat) (off : Int) : List Piece :=
  if n = 0 then [] else
    let nib := ((((Handle.nibbleOf h 0 j k l : Nat) : Int) + 2 * off) % (2 ^ 65 : Nat)).toNat
    sidePieces s op sd (nib / 2) ((nib % 2 + n * (Handle.width h / 4) + 1) / 2)

/-- Row `r` of an index array of TLDG or TSTS: as read at the start, or as it stands (R233). -/
def Op.rowIndex (s : State) (o : Op) (r : Nat) : Nat :=
  if o.data = [] then readNat s (.core o.core) (o.b.toNat + 4 * r) 4 else bytesAt o.data (4 * r) 4

def isGather : Instr → Bool
  | .tldg .. | .tsts .. => true
  | _ => false

/-- The handle row of a tile row. -/
def Op.handleRow (s : State) (o : Op) (r : Nat) : Nat := if isGather o.ins then o.rowIndex s r else r

/-- A slot of a bobbin. -/
def slotPiece (c : Nat) (b : Bobbin) (i : Nat) : Piece := ⟨.core c, b.slotAddr i, b.slotAddr i + b.slotBytes⟩

/-! ### Copy descriptors (R275) -/

/-- The descriptor taken with C = z: no outer dimension, own locations. -/
def plainDescriptor : List Byte := leBytes (0xFFFF * 2 ^ 64) 16
def Op.hdr (o : Op) (lo w : Nat) : Nat := field (leNat (o.data.take 16)) lo w
def Op.nout (o : Op) : Nat := o.hdr 80 4
/-- Size and source and destination strides of outer dimension `j`. -/
def Op.outer (o : Op) (j : Nat) : Nat × Int × Int :=
  let e := leNat ((o.data.drop (16 + 16 * j)).take 16)
  (field e 112 16, sextNat 64 e, sextNat 48 (field e 64 48))
def Op.points (o : Op) : Nat := (upFrom 0 o.nout).foldl (fun n j => n * (o.outer j).1) 1
/-- The byte offsets of outer point `n`, dimension 4 fastest (R276). -/
def Op.outerOffs (o : Op) (n : Nat) : Int × Int :=
  let r := (upFrom 0 o.nout).foldl (fun (a : Nat × Int × Int) j =>
    let (sz, ss, ds) := o.outer j
    let i : Int := (a.1 % sz : Nat)
    (a.1 / sz, a.2.1 + i * ss, a.2.2 + i * ds)) (n, 0, 0)
  r.2

/-- A side of a copy: its handle's level and the descriptor's location; a bobbin lies in core scratchpad. -/
def copySide (p : Port) (h : HandleBits) (loc : Nat) : Side :=
  match p with
  | .b _ => Side.own 0
  | _ => ⟨Handle.lvl h, loc⟩

/-- The bytes of a list entry (R278). -/
structure ListEntry where
  src  : Nat
  dst  : Nat
  sstr : Int
  dstr : Int
  len  : Nat
  rows : Nat
  ss   : Side
  ds   : Side
  rf   : Bool
  rcore : Nat
  rflg : Nat
  rtag : Nat
  ok   : Bool

/-- The location byte of a side is one R275 allows for its level. -/
def locOk (lvl loc : Nat) : Bool :=
  match lvl with
  | 0 => loc == 0xFF
  | 1 => decide (loc < 32) || loc == 0xFF
  | 2 => decide (loc < 4) || loc == 0xFF
  | _ => true

def ListEntry.of (l : List Byte) : ListEntry :=
  let g := bytesAt l
  let sl := g 40 1 % 4
  let dl := g 40 1 / 4 % 4
  { src := g 0 8, dst := g 8 8, sstr := sextNat 64 (g 16 8), dstr := sextNat 64 (g 24 8), len := g 32 4, rows := g 36 4,
    ss := ⟨sl, g 41 1⟩, ds := ⟨dl, g 42 1⟩, rf := g 43 1 % 2 == 1, rcore := g 44 2, rflg := g 46 1 % 32, rtag := g 48 2,
    ok := decide (g 40 1 < 16) && locOk sl (g 41 1) && locOk dl (g 42 1) && decide (g 43 1 < 2) && decide (g 44 2 < 256) &&
      decide (g 46 1 < 32) && g 47 1 == 0 && g 50 14 == 0 }

/-- Read bytes of a side for an operation, or the cause of the first that cannot be read. -/
def readSide (s : State) (op : Op) (sd : Side) (a : Nat) : Nat → Except Nat (List Byte)
  | 0 => .ok []
  | n + 1 =>
    match placeOf s op sd false (a % 2 ^ 64) with
    | .bad k => .error k
    | .at sp off =>
      match readSide s op sd (a + 1) n with
      | .error k => .error k
      | .ok l => .ok (readByte s sp off :: l)

/-- The list of a CPYL. -/
def listSide : Instr → Side
  | .cpyl _ _ _ _ _ _ l => Side.own l.code.toNat
  | _ => Side.own 0

/-- Entry `i` of a list. -/
def listEntry (s : State) (o : Op) (i : Nat) : Except Nat ListEntry :=
  match readSide s o (listSide o.ins) (o.a.toNat + 64 * i) 64 with
  | .ok l => .ok (ListEntry.of l)
  | .error k => .error k

/-! ### The bytes an operation has still to write, and to read -/

def atomSpan (o : Op) : Nat := match atomForm o.ins with
  | some (_, true) => 8
  | _ => 4

/-- The bytes of a handle's extent, moved by `off`, in rows of at most `n0` elements. -/
def extentPieces (s : State) (o : Op) (sd : Side) (h : HandleBits) (n0 : Nat) (off : Int) : List Piece :=
  (upFrom 0 (Handle.used h 3)).flatMap fun l => (upFrom 0 (Handle.used h 2)).flatMap fun k =>
    (upFrom 0 (Handle.used h 1)).flatMap fun j => rowPieces s o sd h (min n0 (Handle.used h 0)) j k l off

/-- The rows of a tile that its handle's extent holds (R232). -/
def tilePieces (s : State) (o : Op) (b : Bobbin) : List Piece :=
  if Handle.bare o.ha then [] else
  (upFrom 0 b.rows).flatMap fun r =>
    let i := o.handleRow s r
    if i < Handle.used o.ha 1 then rowPieces s o (Side.own (Handle.lvl o.ha)) o.ha (min b.cols (Handle.used o.ha 0)) i 0 0 0 else []

/-- The slots of a bobbin that a copy has still to use: until it has reserved or claimed them, any. -/
def pointSlots (o : Op) (b : Bobbin) : List Piece :=
  if o.phase = .queued then [⟨.core o.core, b.base, b.base + b.cap * b.slotBytes⟩]
  else (upFrom o.idx (o.points - o.idx)).map fun n => slotPiece o.core b ((o.slot + n) % b.cap)

/-- The bytes an operation has still to write. -/
def Op.pieces (s : State) (o : Op) : List Piece :=
  let bob := fun r => (s.core o.core).ctx.bobbin r
  match o.ins with
  | .tld _ d _ _ _ | .tldg _ d _ _ _ => [slotPiece o.core (bob (bOf d)) o.slot]
  | .tst _ _ _ _ c | .tsts _ _ _ _ c => tilePieces s o (bob (bOf c))
  | .tmv _ _ _ (.b r) => [slotPiece o.core (bob r.val) o.slot]
  | .tmv .. => extentPieces s o (Side.own (Handle.lvl o.hb)) o.hb (Handle.used o.hb 0) 0
  | .cpy _ _ _ (.b r) _ _ => pointSlots o (bob r.val)
  | .cpy _ _ _ p _ _ => (upFrom o.idx (o.points - o.idx)).flatMap fun n =>
      extentPieces s o (copySide p o.hb (o.hdr 64 8)) o.hb (Handle.used o.hb 0) (o.outerOffs n).2
  | .cpyl .. =>
    (upFrom o.idx (o.b.toNat - o.idx)).flatMap fun i =>
      match listEntry s o i with
      | .error _ => []
      | .ok e => (upFrom 0 e.rows).flatMap fun (r : Nat) => sidePieces s o e.ds (wrap 64 ((e.dst : Int) + ((r : Nat) : Int) * e.dstr)) e.len
  | .hqpush .. =>
    let h := s.hatchOf o.a.toNat
    let a := bvField h.cfg 6 21 * 64
    [⟨.die (o.a.toNat / 256 % 4), a, a + 64 * (bvField h.cfg 48 12 + 1)⟩]
  | .hqpop .. => [⟨.core o.core, o.b.toNat, o.b.toNat + 64⟩]
  | .ovl _ _ _ _ _ _ sl => [⟨.store o.core, sl.toNat * 0x10000, sl.toNat * 0x10000 + 0x10000⟩]
  | .rcmp .. => extentPieces s o (Side.own (Handle.lvl o.hb)) o.hb (Handle.used o.hb 0) 0 ++
      extentPieces s o (Side.own (Handle.lvl o.hc)) o.hc (Handle.used o.hc 0) 0 ++
      sidePieces s o (Side.own 0) o.c.toNat (2 * Handle.size o.ha 1)
  | .rrst .. => extentPieces s o (Side.own (Handle.lvl o.hb)) o.hb (Handle.used o.hb 0) 0
  | .rpred .. => sidePieces s o (Side.own 0) o.b.toNat (2 * o.c.toNat)
  | .rset .. => sidePieces s o (Side.own 0) (o.a.toNat + 2 * o.b.toNat) (2 * o.c.toNat)
  | i =>
    match atomForm i with
    | some (l, _) => sidePieces s o (Side.own l.code.toNat) o.a.toNat (atomSpan o)
    | none => []

/-- The bytes an operation has still to read, where they lie in core scratchpad: what a later fill could overwrite. -/
def Op.reads (s : State) (o : Op) : List Piece :=
  let bob := fun r => (s.core o.core).ctx.bobbin r
  let whole := fun (h : HandleBits) => if Handle.lvl h = 0 then extentPieces s o (Side.own 0) h (Handle.used h 0) 0 else []
  match o.ins with
  | .tld _ d _ _ _ | .tldg _ d _ _ _ => if Handle.lvl o.ha = 0 then tilePieces s o (bob (bOf d)) else []
  | .tst _ _ _ _ c | .tsts _ _ _ _ c => [slotPiece o.core (bob (bOf c)) o.slot]
  | .tmv .. => whole o.ha
  | .cpy _ _ (.b r) _ _ _ => pointSlots o (bob r.val)
  | .cpy .. => if Handle.lvl o.ha = 0 then (upFrom 0 o.points).flatMap fun n =>
      extentPieces s o (Side.own 0) o.ha (Handle.used o.ha 0) (o.outerOffs n).1 else []
  | .cpyl .. => (upFrom o.idx (o.b.toNat - o.idx)).flatMap fun i =>
      match listEntry s o i with
      | .error _ => []
      | .ok e => if e.ss.lvl = 0 then (upFrom 0 e.rows).flatMap fun (r : Nat) =>
          sidePieces s o e.ss (wrap 64 ((e.src : Int) + ((r : Nat) : Int) * e.sstr)) e.len else []
  | .hqpush .. => [⟨.core o.core, o.b.toNat, o.b.toNat + 64⟩]
  | .rcmp .. | .rrst .. => whole o.ha
  | .rpred .. => sidePieces s o (Side.own 0) o.a.toNat (4 * o.c.toNat)
  | .rcnt .. => sidePieces s o (Side.own 0) o.a.toNat (2 * o.b.toNat)
  | _ => []

/-- The bytes an operation has still to read, wherever they lie. -/
def Op.sources (s : State) (o : Op) : List Piece :=
  let bob := fun r => (s.core o.core).ctx.bobbin r
  let own := fun (h : HandleBits) => Side.own (Handle.lvl h)
  match o.ins with
  | .tld _ d _ _ _ | .tldg _ d _ _ _ => tilePieces s o (bob (bOf d))
  | .tmv .. | .rcmp .. | .rrst .. => extentPieces s o (own o.ha) o.ha (Handle.used o.ha 0) 0
  | .cpy _ _ (.b r) _ _ _ => pointSlots o (bob r.val)
  | .cpy _ _ p _ _ _ => (upFrom o.idx (o.points - o.idx)).flatMap fun n =>
      extentPieces s o (copySide p o.ha (o.hdr 72 8)) o.ha (Handle.used o.ha 0) (o.outerOffs n).1
  | .cpyl .. => (upFrom o.idx (o.b.toNat - o.idx)).flatMap fun i =>
      match listEntry s o i with
      | .error _ => []
      | .ok e => (upFrom 0 e.rows).flatMap fun (r : Nat) => sidePieces s o e.ss (wrap 64 ((e.src : Int) + ((r : Nat) : Int) * e.sstr)) e.len
  | .ovl .. => sidePieces s o (Side.own 3) o.a.toNat (64 * o.b.toNat)
  | .munst .. => (maskRows o.f).flatMap fun m => sidePieces s o (Side.own 3) (o.stashVa m) 256
  | i =>
    match atomForm i with
    | some (l, _) => sidePieces s o (Side.own l.code.toNat) o.a.toNat (atomSpan o)
    | none => o.reads s

/-! ## Which operations may go on -/

/-- What a core has issued before operation `n` and not yet performed, of ag, of the copy engine and of tm. -/
def Core.pendingBefore (x : Core) (n : Nat) : List Op :=
  (x.ag ++ x.ce ++ x.taken ++ x.tm ++ x.rowRun.toList).filter fun p => decide (p.id < n) && p.phase != .performed

/-- Two operations of one bobbin, whose ring keeps their slots apart. -/
def sameRing (p o : Op) : Bool :=
  let b := fun (q : Op) => (fillBob q.ins).orElse fun _ => storeBob q.ins
  (b o).isSome && b p == b o && p.ctag == o.ctag

/-- An earlier operation that reads before a later one may: not one that waits for a slot, or in the copy engine for its turn or for a
queue, which could wait for the later one (R230, R265, R377). -/
def Op.readsFirst (x : Core) (p : Op) : Bool :=
  !p.waitsSlot x && match p.ins with
    | .hqpush .. | .hqpop .. => false
    | .cpy .. | .cpyl .. | .ovl .. | .tmv .. => p.phase == .started
    | _ => true

/-- What a core has issued before an operation and not yet performed, but for what its trap froze. -/
def earlierOps (s : State) (o : Op) : List Op :=
  let x := s.core o.core
  (x.pendingBefore o.id).filter fun p => !(x.frozenOps o.id).contains p.id

/-- No earlier operation of the core has still to read one of the bytes that this one reads: a later read of a location returns no older
value (R252). -/
def readsInOrder (s : State) (o : Op) : Bool :=
  let e := (earlierOps s o).filter (Op.readsFirst (s.core o.core))
  e.isEmpty || let mine := o.sources s; e.all fun p => !piecesMeet (p.sources s) mine

/-- The bytes that an earlier operation has still to write, or to read, before a later one may write them (R231, R281). Of two operations of
one bobbin a store's source slot is no such bytes, since the later one may be what fills it (R230), and a copy that waits for slots of the
ring has none. -/
def Op.guards (s : State) (o p : Op) : List Piece :=
  if sameRing p o then (if p.phase = .queued ∧ isCopy p.ins then [] else p.pieces s) else p.pieces s ++ p.reads s

/-- No earlier operation of the core has still to write one of the bytes that this one writes, or to read one that it writes or reads (R231,
R249, R252, R281). -/
def inOrder (s : State) (o : Op) : Bool :=
  let e := earlierOps s o
  (e.isEmpty || let mine := o.pieces s; e.all fun p => !piecesMeet (Op.guards s o p) mine) && readsInOrder s o

/-- The writes of an operation may be made: everything its core issued before is performed (E4 of R249), and where they leave the
die its clock lets them through (R254). -/
def mayWrite (s : State) (o : Op) : Bool :=
  performedBefore s o.core o.id && (o.pieces s).all fun p => clockLets s (dieOf o.core) p.sp p.lo

/-! ## The state of a bobbin while its context is away (R196, R395) -/

def SlotState.code : SlotState → Nat
  | .free => 0 | .reserved => 1 | .landed => 2 | .failed => 3

/-- A bobbin's 128 bytes of the spill image (R395). -/
def Bobbin.image (b : Bobbin) : List Byte :=
  leBytes b.cfg.toNat 8 ++ leBytes b.loc.toNat 8 ++ leBytes b.ptr.toNat 8 ++ leBytes (b.zbo.toNat * 2 ^ 32 + b.sbo.toNat) 8
    ++ leBytes ((upFrom 0 256).foldl (fun a i => a + (b.slot i).code * 4 ^ i) 0) 64 ++ rep 0#8 32

/-- A bobbin's image in the spill region of a context that is away: it lies in the region's first page, as its flag words do. -/
def saveBobbin (s : State) (c : Nat) (a : Away) (b : Nat) : State :=
  if a.addr % 0x1000 = 0x948 then awayPut s c (a.addr - 0x948 + 0x2000 + 128 * b) ((s.core c).ctx.bobbin b).image else s

/-- Change a bobbin for an operation of its context, in the shadow store too where a rollback does not repeat it; while that
context is away, in its saved image too. -/
def modOpBobbin (s : State) (o : Op) (b : Nat) (f : Bobbin → Bobbin) : State :=
  let x := s.core o.core
  if !o.runs x then s else
    let s := s.modCtxFor o.core o.id fun y => y.modBobbin b f
    match x.awayOf o.ctag with
    | some a => saveBobbin s o.core a b
    | none => s

/-! ## Taking and starting -/

/-- Is the operation in the result log (R402)? -/
def isOnce (s : State) (o : Op) : Bool := o.orig.isSome || (onceRec s o.core o.id).isSome

/-- An STS issued before operation `id` whose access is still to come (R231). -/
def storesDue (x : Core) (id : Nat) : Bool :=
  x.ctx.flights.any fun f => decide (f.id < id) && f.wrs.any fun w => match w with
    | .store .. => true
    | _ => false

def isStore : Instr → Bool
  | .tst .. | .tsts .. => true
  | _ => false

/-- May a queued transfer of ag start? A store waits for its source slot (R230, R233). -/
def agReady (s : State) (o : Op) : Bool :=
  !isAtom o.ins && o.phase == .queued && !storesDue (s.core o.core) o.id &&
    (!isStore o.ins || !o.waitsSlot (s.core o.core))

/-- The next transfer to start: the first not started, past stores that wait for their slots. -/
def nextStart (s : State) : List Op → Option Op
  | [] => none
  | o :: r =>
    if isAtom o.ins || o.phase != .queued then nextStart s r
    else if agReady s o then some o
    else if isStore o.ins then nextStart s r else none

/-- While the core is frozen, ce's and sy's queues stand still, but for what the handler issues and what SPILL drains
(R272). -/
def Core.sends (x : Core) (o : Op) : Bool := x.mode == .u || o.smode || x.ctxBusy == some 1

/-- The command the copy engine may take next: not past a pending FENCE, not behind a hatch-queue entry that waits, at most
16 at a time (R257, R265, R377). -/
def nextTake (x : Core) : Option Op :=
  let hq := fun (o : Op) => match o.ins with
    | .hqpush .. | .hqpop .. => true
    | _ => false
  if x.taken.length ≥ 16 || x.taken.any (fun o => hq o && o.phase != .performed) then none else
    match x.ce.find? x.sends with
    | some o => if fencedBefore x o || storesDue x o.id then none else some o
    | none => none

def isTmv : Instr → Bool
  | .tmv .. => true
  | _ => false

/-! ## TMV (R234) -/

def execTmv (g : Guard) (d a b : Port) (s : State) : Host.Outcome State Fault Refusal :=
  issue (.tmv g d a b) s fun s =>
    let hb := match b with
      | .h r => s.ctx.handle r.val
      | _ => 0
    let o := { s.mkOp (.tmv g d a b) 0 0 0 0 (s.ctx.handle (hOf a)) hb 0 with slot := (s.ctx.bobbin (bOf b)).head }
    let once := match b with
      | .h _ => Handle.lvl hb != 0
      | _ => false
    submit s o once fun x o =>
      { x with ce := x.ce ++ [o]
               ctx := match b with
                 | .b r => x.ctx.modBobbin r.val fun bo => bo.reserve .reserved
                 | _ => x.ctx }

/-! ## Starting (R230) -/

/-- The next entry of a transfer queue starts; a gather's index array is read (R230, R233). -/
def transferStart (s : State) (c : Nat) (ce : Bool) : State :=
  let x := s.core c
  if ce then
    match nextTake x with
    | some o => if isTmv o.ins then
        s.modCore c fun x => { x with ce := removeOp o.id x.ce, taken := x.taken ++ [{ o with phase := .started }] }
      else s
    | none => s
  else
    match nextStart s x.ag with
    | none => s
    | some o =>
      let rows := match fillBob o.ins, storeBob o.ins with
        | some b, _ => (x.ctx.bobbin b).rows
        | _, some b => (x.ctx.bobbin b).rows
        | _, _ => 0
      let data := if isGather o.ins then readBytes s (.core c) o.b.toNat (4 * rows) else []
      s.modCore c fun x => { x with ag := replaceOp { o with phase := .started, data := data } x.ag }

/-! ## Moving a tile (R232, R233) -/

/-- A gathered or scattered row passes R223's check; HBM rows are left to translation. -/
def rowOk (o : Op) (b : Bobbin) (i : Nat) : Bool :=
  let h := o.ha
  let lvl := Handle.lvl h
  let n := min b.cols (Handle.used h 0)
  if lvl = 3 ∨ n = 0 ∨ Handle.bare h then true else
    let w : Int := (Handle.width h / 4 : Nat)
    let lo : Int := 2 * Handle.base h + (if Handle.width h < 8 then Handle.nib h else 0) + i * Handle.stride h 1 * w
    let a := lo / 2
    let e := (lo + n * w + 1) / 2
    decide (0 ≤ a) && decide (e ≤ levelSize lvl) && inGrant o.smode o.spwcl o.spwdi lvl a.toNat e.toNat

/-- The tile rows of a gather or scatter that fail their check. -/
def badRows (s : State) (o : Op) (b : Bobbin) : List Nat :=
  if !isGather o.ins then [] else
    (upFrom 0 b.rows).filter fun r => decide (o.handleRow s r < Handle.used o.ha 1) && !rowOk o b (o.handleRow s r)

/-- Record failed rows (R233, R280). -/
def failRows (s : State) (o : Op) : List Nat → State
  | [] => s
  | r :: l => failRows (failItem s o 0x098 0 r) o l

/-- Move a transfer's tile: the state, and the operation with the number of failed items. -/
def moveTile (s : State) (o : Op) (b : Nat) (fill : Bool) : State × Op :=
  let bo := (s.core o.core).ctx.bobbin b
  let bad := badRows s o bo
  let keep := fun r => !bad.contains r
  let mem := Side.own (Handle.lvl o.ha)
  let own := Side.own 0
  let m := if fill then moveAll o (isOnce s o) mem own (loadMoves bo o.slot o.ha (o.handleRow s) keep) 0 s
    else moveAll o (isOnce s o) own mem (storeMoves bo o.slot o.ha (o.handleRow s) keep) 0 s
  let s := failRows m.st o bad
  match m.fail with
  | some (k, ofs) => (failItem s o k ofs 0, { o with fails := bad.length + 1 })
  | none => (s, { o with fails := bad.length })

/-! ## Copies: one outer point (R274, R276) -/

/-- A handle whose base is moved by `n` bytes. -/
def shiftBase (h : HandleBits) (n : Int) : HandleBits := bvSet h 0 64 (wrap 64 (Handle.base h + n))

/-- Bytes of one outer point, in half-bytes. -/
def pointNibs (o : Op) (bo : Bobbin) : Nat :=
  match o.ins with
  | .cpy _ _ (.b _) _ _ _ | .cpy _ _ _ (.b _) _ _ => bo.rows * bo.cols * ((bo.fmt.map fmtWidth).getD 8 / 4)
  | _ => Handle.used o.ha 0 * Handle.used o.ha 1 * Handle.used o.ha 2 * Handle.used o.ha 3 * (Handle.width o.ha / 4)

/-- The moves of outer point `n`. -/
def pointMoves (s : State) (o : Op) (n : Nat) : List Move :=
  let x := (s.core o.core).ctx
  let (so, d) := o.outerOffs n
  match o.ins with
  | .cpy _ _ _ (.b r) _ _ =>
    let bo := x.bobbin r.val
    loadMoves bo ((o.slot + n) % bo.cap) (shiftBase o.ha so) id fun _ => true
  | .cpy _ _ (.b r) _ _ _ =>
    let bo := x.bobbin r.val
    storeMoves bo ((o.slot + n) % bo.cap) (shiftBase o.hb d) id fun _ => true
  | _ => extentMoves o.ha o.hb so d

def copySides (o : Op) : Side × Side :=
  match o.ins with
  | .cpy _ _ a b _ _ => (copySide a o.ha (o.hdr 72 8), copySide b o.hb (o.hdr 64 8))
  | _ => (Side.own 0, Side.own 0)

/-- Perform outer point `n`: a failure ends the item with its offset and outer index. -/
def movePoint (s : State) (o : Op) (n : Nat) : State × Option (Nat × Nat) :=
  let bo := (s.core o.core).ctx.bobbin ((fillBob o.ins).getD ((storeBob o.ins).getD 0))
  let (ss, ds) := copySides o
  let m := moveAll o (isOnce s o) ss ds (pointMoves s o n) (n * pointNibs o bo) s
  (m.st, m.fail)

/-! ## Fills landing (R193) -/

/-- The slot a fill writes next. -/
def Op.fillSlot (s : State) (o : Op) : Nat :=
  match o.ins with
  | .cpy _ _ _ (.b r) _ _ => (o.slot + o.idx) % ((s.core o.core).ctx.bobbin r.val).cap
  | _ => o.slot

/-- Mark a reserved slot. -/
def Bobbin.mark (b : Bobbin) (i : Nat) (x : SlotState) : Bobbin := if b.slot i = .reserved then b.setSlot i x else b

/-- Mark `n` slots from the `i`-th. -/
def Bobbin.markN (b : Bobbin) (i : Nat) (x : SlotState) : Nat → Bobbin
  | 0 => b
  | n + 1 => Bobbin.markN (b.mark (i % b.cap) x) (i + 1) x n

/-- The fill that fills slot `n` of bobbin `b` next. -/
def fillOf (s : State) (c b n : Nat) : Option Op :=
  let x := s.core c
  (x.ag ++ x.taken).find? fun o => fillBob o.ins == some b && o.phase == .started && o.fillSlot s == n && o.runs x &&
    (match o.ins with | .cpy .. => decide (o.idx < o.points) | _ => true)

/-- Put an operation back where it stands. -/
def putOp (s : State) (o : Op) : State :=
  s.modCore o.core fun x => { x with ag := replaceOp o x.ag, taken := replaceOp o x.taken }

/-- A copy's last point is done: its remote increment is sent if none has failed, and the copy ends once that has been applied (R271,
R276, R281). -/
def copyDone (s : State) (o : Op) : State :=
  let s := putOp s { o with phase := .performed }
  if o.fails = 0 && o.hdr 90 1 == 1 then sendOp s o (dieOf o.core) (o.hdr 96 8) (o.hdr 112 16) (o.hdr 91 5) 1 false else s

/-- The last byte of a fill's tile lands: the slot becomes landed, or failed with its item (R193, R233). -/
def fillLanded (s : State) (c b n : Nat) : State :=
  match fillOf s c b n with
  | none => s
  | some o =>
    if !inOrder s o then s else
    match o.ins with
    | .cpy .. =>
      let (s, fail) := movePoint s o o.idx
      match fail with
      | some (k, ofs) =>
        let s := failItem s o k ofs o.idx
        let s := modOpBobbin s o b fun bo => bo.markN (o.slot + o.idx) .failed (o.points - o.idx)
        putOp s { o with fails := 1, phase := .performed }
      | none =>
        let s := modOpBobbin s o b fun bo => bo.mark n .landed
        let o := { o with idx := o.idx + 1 }
        if o.idx = o.points then copyDone s o else putOp s o
    | _ =>
      let (s, o) := moveTile s o b true
      let s := modOpBobbin s o b fun bo => bo.mark n (if o.fails = 0 then .landed else .failed)
      putOp s { o with phase := .performed }

/-! ## Transfers ending (R230) -/

/-- Take an operation out of its queue and end it, in a rerun as the operation it repeats ended (R280, R281, R404). -/
def finishOp (s : State) (o : Op) : State :=
  let o := (settled s o).getD o
  endOp (s.modCore o.core fun x => { x with ag := removeOp o.id x.ag, taken := removeOp o.id x.taken }) o

/-- A started store writes its tile, or finds its source failed; its slot pops in turn (R194, R233). -/
def storeTile (s : State) (o : Op) (b : Nat) : State :=
  let failed := o.slotState (s.core o.core) == .failed
  let (s, o) := if failed then (failItem s o 0x099 0 0, { o with fails := 1 }) else moveTile s o b false
  finishOp (modOpBobbin s o b fun bo => bo.release o.id) o

/-- The first transfer of a list that can end: a fill has landed, an overlay's load meets no earlier write of its slot, any other may
write. -/
def endable (s : State) : List Op → Option Op
  | [] => none
  | o :: r =>
    let ready := match fillBob o.ins, o.ins with
      | some _, _ => o.phase == .performed
      | none, .ovl .. => o.phase == .started && inOrder s o
      | none, _ => o.phase == .started && mayWrite s o
    if !isAtom o.ins && ready && (settled s o).isSome then some o else endable s r

/-- Copy `n` bytes of an overlay into the instruction store from byte `k` (R110). -/
def loadStore (o : Op) (base k : Nat) (s : State) : Nat → Moved
  | 0 => ⟨s, none⟩
  | n + 1 =>
    let va := (o.a.toNat + k) % 2 ^ 64
    match o.errAt k, placeOf s o (Side.own 3) false va with
    | some q, _ => ⟨s, some (q, k)⟩
    | none, .bad q => ⟨s, some (q, k)⟩
    | none, .at sp off =>
      loadStore o base (k + 1) (opWrite (s.useRange o.core o.part va) o false (.store o.core) (base + k) [readByte s sp off]) n

/-- A transfer's last write lands and its flag follows (R230). -/
def transferComplete (s : State) (c : Nat) (ce : Bool) : State :=
  let x := s.core c
  if ce then
    match endable s (x.taken.filter fun o => isTmv o.ins || (match o.ins with | .ovl .. => true | _ => false)) with
    | none => s
    | some o =>
      match o.ins, fillBob o.ins with
      | .ovl _ _ _ _ _ ovn sl, _ =>
        let m := loadStore o (sl.toNat * 0x10000) 0 s (64 * o.b.toNat)
        match m.fail with
        | some (k, ofs) => finishOp (failItem m.st o k ofs 0) { o with fails := 1 }
        | none =>
          let tag : IsTag := ⟨o.f.setWidth 32, BitVec.ofNat 11 o.b.toNat, ovn, 2⟩
          finishOp (m.st.modCore c fun x => { x with istag := vset x.istag sl.toNat tag }) o
      | _, some _ => finishOp s o
      | _, none =>
        let m := moveAll o (isOnce s o) (Side.own (Handle.lvl o.ha)) (Side.own (Handle.lvl o.hb)) (extentMoves o.ha o.hb 0 0) 0 s
        match m.fail with
        | some (k, ofs) => finishOp (failItem m.st o k ofs 0) { o with fails := 1 }
        | none => finishOp m.st o
  else
    match endable s x.ag with
    | none => s
    | some o =>
      match storeBob o.ins with
      | some b => storeTile s o b
      | none => finishOp s o

/-- Finished claims of stores and copies at the head of a bobbin's claims pop (R194). -/
def storeSlotPop (s : State) (c b : Nat) : State :=
  let x := s.core c
  let s' := s.modCtx c fun y => y.modBobbin b fun bo => bo.settle bo.claims.length
  match x.awayOf x.ctag with
  | some a => saveBobbin s' c a b
  | none => s'

def execTransferStart (c : Nat) (ce : Bool) (s : State) : Host.Outcome State Fault Refusal := event s fun s => transferStart s c ce
def execTransferComplete (c : Nat) (ce : Bool) (s : State) : Host.Outcome State Fault Refusal := event s fun s => transferComplete s c ce
def execFillSlotLanded (c b n : Nat) (s : State) : Host.Outcome State Fault Refusal := event s fun s => fillLanded s c b n
def execStoreSlotPop (c b : Nat) (s : State) : Host.Outcome State Fault Refusal := event s fun s => storeSlotPop s c b

end Sys2Proof.Machine
end

