-- ==== Sys2Proof/Machine/Atomics.lean ====
section
/-! DEFINITION. Machine/Atomics.lean: an ATOM performed at its home, and its completion (R252, R258 to R262). -/

namespace Sys2Proof.Machine

/-- The oldest ATOM of a core still to be performed: ATOMs of one core are performed in issue order, to different locations too, where
R261 leaves them unordered: DESIGN CHOICE (notes/assumptions/93.md). It starts past no TLD, TLDG, TST or TSTS issued before it but
stores that wait for their slots (R230). -/
def nextAtom (x : Core) : Option Op :=
  match x.ag.find? fun o => isAtom o.ins && o.phase == .queued with
  | some o => if x.ag.any fun p => decide (p.id < o.id) && !isAtom p.ins && p.phase == .queued && !p.waitsSlot x then none else some o
  | none => none

/-- The value an ATOM read is noted: in its queue entry, and in the list entry of a frozen core (R262, R389). -/
def noteAtomValue (s : State) (c : Nat) (o : Op) : State :=
  let s := s.modCore c fun x => { x with ag := replaceOp o x.ag }
  let pending := fun k => readNat s (.core c) k 1 == 4 && readNat s (.core c) (k + 4) 2 == 0 && readNat s (.core c) (k + 8) 8 == slotBits o.ins
  if (s.core c).mode = .s && !o.smode then
    match (listOffsets s c listStart (listCount s c)).find? pending with
    | some k => writeNat (writeNat s (.core c) (k + 4) 2 1) (.core c) (k + 16) 8 o.val.toNat
    | none => s
  else s

/-- What a repeated ATOM would write, from the value it read: a rerun's signature takes it, and nothing is written (R403, R404). -/
def repeatAtom (s : State) (o : Op) (l : Lvl) (q : Bool) : State :=
  match atomPlace s o l with
  | .bad _ => s
  | .at sp off =>
    let w := if q then 64 else 32
    noteSig s o.core o.id sp off (leBytes (atomNew o.ins w (bvField o.val 0 w) (bvField o.b 0 w) (bvField o.c 0 w)) (w / 8))

/-- A fault of a pending ATOM freezes the core at a report point, and the ATOM stays pending (R262). -/
def atomFault (s : State) (c : Nat) (o : Op) (k : Nat) : State :=
  let x := s.core c
  if (x.mode = .s && !o.smode) || x.held.any (fun h => h.cause == k) then s else s.hold c (Held.report k (slotMask 2) o.a)

/-- The home performs the oldest ATOM of a core: one indivisible read and write (R252, R260). A fault freezes the core and
the ATOM stays pending (R262). -/
def atomPerform (s : State) (c : Nat) : State :=
  match nextAtom (s.core c) with
  | none => s
  | some o =>
    match atomForm o.ins with
    | none => s
    | some (l, q) =>
      match settled s o with
      | none => s
      | some o =>
        if !inOrder s o then s else
        if o.orig.isSome then noteAtomValue (repeatAtom s o l q) c { o with phase := .performed } else
        match atomPlace s o l with
        | .bad k => atomFault s c o k
        | .at sp off =>
          if l = .hbm && !clockAllows s (clockOf o.data) (dieOf c) (homeDie off) then s else
          if !logTurn s o.part (atomRec s o sp off) then s else
          let n := if q then 8 else 4
          let old := readNat s sp off n
          let new := atomNew o.ins (8 * n) old (bvField o.b 0 (8 * n)) (bvField o.c 0 (8 * n))
          let used := if l = .hbm then s.useRange o.core o.part o.a.toNat else s
          let s := logNote (opWrite used o (l != .core) sp off (leBytes new n)) o.part (atomRec s o sp off)
          let o := { o with phase := .performed, val := BitVec.ofNat 64 old }
          noteAtomValue s c o

/-- Add a result to the in-flight list of a frozen core, as its last entry (R262, R309). -/
def listResult (s : State) (c : Nat) (f : Flight) : State :=
  let n := listCount s c
  let s := writeBytes s (.core c) ((listOffsets s c listStart (n + 1)).getLastD listStart) (Entry.flight f).bytes
  let s := writeNat s (.core c) (saveArea + 0x16) 2 (n + 1)
  s.modCore c fun x => { x with frozen := x.frozen ++ [f] }

/-- A port that a result of a later operation has landed in during this schedule cycle keeps that: equal landing cycles follow issue order
(R33). -/
def Core.landedLater (x : Core) (id : Nat) (w : Wr) : Bool := w.place.any fun p => x.landed.any fun e => e.1 == p && decide (id < e.2)

/-- A result of an engine operation lands: in the context that runs, in the in-flight list of a frozen one, and in the shadow store
where a rollback does not repeat the operation (R33, R261, R309, R401). -/
def landLate (s : State) (c : Nat) (f : Flight) (frozen : Bool) : State :=
  if frozen then { listResult s c { f with id := s.nextId } with nextId := s.nextId + 1 }
  else
    let s := s.modCore c fun x => { x with ckpt := x.ckpt.map fun k =>
      if f.id < k.first then { k with shadow := f.wrs.foldl Ctx.takeWr k.shadow } else k }
    let f := { f with wrs := f.wrs.filter fun w => !(s.core c).landedLater f.id w }
    landAll (s.modCtx c fun y => y.launch f) c

/-- The oldest performed ATOM of the running context, or of the handler, completes: its old value lands in D and ag.y (R261); a frozen
context keeps it in its list for ERET (R262). The value of one whose step has ended is discarded (R390). -/
def atomComplete (s : State) (c : Nat) : State :=
  let x := s.core c
  match x.ag.find? fun o => isAtom o.ins && o.phase == .performed && (x.mode == .u || o.smode) with
  | none => s
  | some o =>
    let f : Flight := ⟨o.id, 0, .ag, 2, 0#8, destWrs .ag (atomEph o.ins) (atomDest o.ins) o.val⟩
    let s' := s.modCore c fun x => { x with ag := removeOp o.id x.ag }
    completeOp (if o.runs x && !o.mute then landLate s' c f false else s') o

def execAtomPerform (c : Nat) (s : State) : Host.Outcome State Fault Refusal := event s fun s => atomPerform s c
def execAtomComplete (c : Nat) (s : State) : Host.Outcome State Fault Refusal := event s fun s => atomComplete s c

end Sys2Proof.Machine
end

