-- ==== Sys2Proof/Machine/Copy.lean ====
section
/-! DEFINITION. Machine/Copy.lean: copy commands, copy lists, hatch-queue entries and overlays (R110, R264 to R282, R288,
R375 to R377), and increments reaching their flags (R268 to R272, R289). -/

namespace Sys2Proof.Machine

/-- Put an operation at the end of ce's queue. -/
def putCe (x : Core) (o : Op) : Core := { x with ce := x.ce ++ [o] }

/-! ## Issue -/

/-- The offsets below which a context's core-scratchpad bytes lie (R223). -/
def Op.ownLimit (o : Op) : Nat := if o.smode then 0x200000 else 0x1F0000

/-- The descriptor of a CPY, where it lies whole in the grant and is aligned (R275). -/
def descriptorOf (s : State) (o : Op) : Option (List Byte) :=
  match o.ins with
  | .cpy _ _ _ _ c _ =>
    if c = .z then some plainDescriptor else
      let a := o.c.toNat
      if a % 16 ≠ 0 ∨ o.ownLimit < a + 16 then none else
        let n := field (readNat s (.core o.core) a 16) 80 4
        if 8 < n ∨ o.ownLimit < a + 16 + 16 * n then none else some (readBytes s (.core o.core) a (16 + 16 * n))
  | _ => none

/-- Does a CPY write outside its core, or send a remote increment (R404)? -/
def cpyOnce (s : State) (o : Op) : Bool :=
  match o.ins with
  | .cpy _ _ _ b _ _ => (copySide b o.hb 0xFF).lvl != 0 ||
      ((descriptorOf s o).map fun d => bitAt (leNat (d.take 16)) 90).getD false
  | _ => false

/-- As `cpyOnce`, for the entries of a list. -/
def cpylOnce (s : State) (o : Op) : Bool :=
  (upFrom 0 o.b.toNat).any fun i => match listEntry s o i with
    | .ok e => e.ds.lvl != 0 || e.rf
    | .error _ => false

def handleOf (x : Ctx) : Port → HandleBits
  | .h r => x.handle r.val
  | _ => 0

def execCpy (g : Guard) (d a b c : Port) (sc : Scope) (s : State) : Host.Outcome State Fault Refusal :=
  issue (.cpy g d a b c sc) s fun s =>
    let o := s.mkOp (.cpy g d a b c sc) 0 0 (s.ctx.val c) 0 (handleOf s.ctx a) (handleOf s.ctx b) 0
    submit s o (cpyOnce s o) putCe
def execCpyl (g : Guard) (d a b : Port) (sc : Scope) (stop : Bool) (llvl : Lvl) (s : State) : Host.Outcome State Fault Refusal :=
  issue (.cpyl g d a b sc stop llvl) s fun s =>
    let o := s.mkOp (.cpyl g d a b sc stop llvl) (s.ctx.val a) (s.ctx.val b) 0 0 0 0 0
    submit s o (s.me.ckpt.isSome && cpylOnce s o) putCe
def execHqpush (g : Guard) (d a b : Port) (s : State) : Host.Outcome State Fault Refusal :=
  issue (.hqpush g d a b) s fun s => submit s (s.mkOp (.hqpush g d a b) (s.ctx.val a) (s.ctx.val b) 0 0 0 0 0) true putCe
def execHqpop (g : Guard) (d a b : Port) (s : State) : Host.Outcome State Fault Refusal :=
  issue (.hqpop g d a b) s fun s => submit s (s.mkOp (.hqpop g d a b) (s.ctx.val a) (s.ctx.val b) 0 0 0 0 0) true putCe

/-- The image identifier of the operator block whose step a core runs (R110, R352). -/
def imageOf (s : State) (c : Nat) : Nat := bvField (s.tcb (s.core c).part (s.core c).task).opb 0 32

def execOvl (g : Guard) (d a b : Port) (frc : Bool) (ovn : BitVec 8) (oslot : BitVec 2) (s : State) : Host.Outcome State Fault Refusal :=
  issue (.ovl g d a b frc ovn oslot) s fun s =>
    submit s (s.mkOp (.ovl g d a b frc ovn oslot) (s.ctx.val a) (s.ctx.val b) 0 (BitVec.ofNat 64 (imageOf s s.cur)) 0 0 0) false putCe

/-- CPYQ's value (R288). -/
def cpyqWord (x : Core) (c sl : Nat) : Word :=
  BitVec.ofNat 64 (match sl with
    | 0 => x.outst | 1 => 16 - x.ce.length | 2 => x.failn | _ => engineOf c)

def execCpyq (g : Guard) (e : Bool) (d : Port) (sl : BitVec 2) (s : State) : Host.Outcome State Fault Refusal :=
  issue (.cpyq g e d sl) s fun s => s.result .ce 6 2 e d (cpyqWord s.me s.cur sl.toNat) 0#8

/-! ## The copy engine takes a command (R265, R276, R277, R377) -/

def isBob : Port → Bool
  | .b _ => true
  | _ => false

/-- Does scope `sc` let a copy's remote increment go to a core and tag (R276)? -/
def remoteOk (s : State) (o : Op) (sc : Scope) (core tag flag : Nat) : Bool :=
  mayReach s o.part o.core o.ctag core tag flag && scopeHas sc (.core o.core) (.core core)

/-- The checks of a CPY when its engine takes it: its operation with the descriptor, or the cause of the failed item. -/
def cpyCheck (s : State) (o : Op) : Except Nat Op :=
  match o.ins, descriptorOf s o with
  | .cpy _ _ a b _ sc, some data =>
    let p := { o with data := data }
    let bo := fun r => (s.core o.core).ctx.bobbin r
    let loc := fun (q : Port) (h : HandleBits) (l : Nat) => if isBob q then l == 0xFF else locOk (Handle.lvl h) l
    let fits := (!isBob a || decide (p.points ≤ (bo (bOf a)).cap)) && (!isBob b || decide (p.points ≤ (bo (bOf b)).cap))
    if p.hdr 0 64 ≠ 0 ∨ p.hdr 84 6 ≠ 0 ∨ p.hdr 104 8 ≠ 0 ∨ !loc a o.ha (p.hdr 72 8) ∨ !loc b o.hb (p.hdr 64 8) then .error 0x0E1
    else if p.hdr 90 1 = 1 ∧ !remoteOk s o sc (p.hdr 96 8) (p.hdr 112 16) (p.hdr 91 5) then .error 0x0E3
    else if !fits then .error 0x0E1
    else .ok p
  | _, _ => .error 0x0E1

/-- Reserve `n` slots. -/
def Bobbin.reserveN (b : Bobbin) : Nat → Bobbin
  | 0 => b
  | k + 1 => Bobbin.reserveN (b.reserve .reserved) k

/-- A copy taken earlier waits for slots that come before this one's (R194, R265). -/
def slotsBehind (s : State) (o : Op) : Bool :=
  (s.core o.core).taken.any fun p => decide (p.id < o.id) && p.phase == .queued &&
    (((fillBob o.ins).isSome && fillBob p.ins == fillBob o.ins) || ((storeBob o.ins).isSome && storeBob p.ins == storeBob o.ins))

/-- A copy reserves or claims one slot for each outer point, once there is room for all and none taken earlier waits for slots of its
bobbin (R193 to R195, R276). That it waits for room for all, and takes none one by one as they come free, is a DESIGN CHOICE
(notes/assumptions/107.md). -/
def claimSlots (s : State) (o : Op) : State × Op :=
  if slotsBehind s o then (s, o) else
  let x := (s.core o.core).ctx
  let n := o.points
  let go := { o with phase := Phase.started }
  match o.ins with
  | .cpy _ _ _ (.b r) _ _ =>
    let bo := x.bobbin r.val
    if bo.cap < bo.cnt + n then (s, o) else
      (modOpBobbin s o r.val fun b => b.reserveN n, { go with slot := bo.head })
  | .cpy _ _ (.b r) _ _ _ =>
    let bo := x.bobbin r.val
    if bo.cap < bo.qp + n then (s, o) else
      (modOpBobbin s o r.val fun b => b.claimN o.id n, { go with slot := bo.nextClaim })
  | _ => (s, { o with phase := .started })

/-- A hatch queue's capacity and pointers. -/
def Hatch.cap (h : Hatch) : Nat := bvField h.cfg 48 12 + 1
def Hatch.line (h : Hatch) (i : Nat) : Nat := (bvField h.cfg 6 21 + i) * 64
def Hatch.cnt (h : Hatch) : Nat := bvField h.ptr 32 13
def Hatch.tail (h : Hatch) : Nat := bvField h.ptr 16 12
def Hatch.head (h : Hatch) : Nat := bvField h.ptr 0 12
def Hatch.full (h : Hatch) : Bool := decide (h.cap ≤ h.cnt)
/-- One entry filled at TAIL; one taken at HEAD. -/
def Hatch.push (h : Hatch) : Hatch := { h with ptr := bvSet (bvSet h.ptr 16 12 ((h.tail + 1) % h.cap)) 32 13 (h.cnt + 1) }
def Hatch.pop (h : Hatch) : Hatch := { h with ptr := bvSet (bvSet h.ptr 0 12 ((h.head + 1) % h.cap)) 32 13 (h.cnt - 1) }
def State.setHatch (s : State) (name : Nat) (h : Hatch) : State :=
  s.modDie (name / 256 % 4) fun d => { d with hatch := mput Hatch.zero (name % 256) h d.hatch }

/-- Can a hatch-queue command move its entry now (R377)? -/
def hqGoes (s : State) (o : Op) : Bool :=
  match o.ins with
  | .hqpush .. => !(s.hatchOf o.a.toNat).full
  | .hqpop .. => (s.hatchOf o.a.toNat).cnt != 0
  | _ => true

/-- The tag of an overlay slot says whether an OVL has anything to load (R110). -/
def ovlResident (x : Core) (o : Op) : Bool :=
  match o.ins with
  | .ovl _ _ _ _ frc ovn sl =>
    let t := vget x.istag sl.toNat IsTag.empty
    !frc && t.st == 2#2 && t.img == o.f.setWidth 32 && t.ovn == ovn && t.len.toNat == o.b.toNat
  | _ => false

/-- Two OVLs of one slot: the later acts after the earlier completes (R110). -/
def ovlBehind (x : Core) (o : Op) : Bool :=
  match o.ins with
  | .ovl _ _ _ _ _ _ sl => x.taken.any fun p => match p.ins with
      | .ovl _ _ _ _ _ _ sl' => sl' == sl
      | _ => false
  | _ => false

/-- The copy engine takes the next command of a core (R276). -/
def copyTake (s : State) (c : Nat) : State :=
  let x := s.core c
  match nextTake x with
  | none => s
  | some o =>
    if isTmv o.ins || ovlBehind x o then s else
    let s := s.modCore c fun x => { x with ce := removeOp o.id x.ce }
    let put := fun (s : State) (o : Op) => s.modCore c fun x => { x with taken := x.taken ++ [o] }
    match o.ins with
    | .cpy .. =>
      match cpyCheck s o with
      | .error k => put (failItem s o k 0 0) { o with fails := 1, phase := .performed }
      | .ok o => let (s, o) := claimSlots s o; put s o
    | .cpyl .. => put s { o with phase := if o.b = 0 then .performed else .started }
    | .ovl _ _ _ _ _ _ sl =>
      if ovlResident x o then finishOp s o
      else put (s.modCore c fun x => { x with istag := vmod x.istag sl.toNat IsTag.empty fun t => { t with st := 1 } }) { o with phase := .started }
    | _ => put s { o with phase := if hqGoes s o then .started else .queued }

/-- A command that waits in the engine for slots or for room in its hatch queue goes on (R195, R377). -/
def engineWaitEnd (s : State) (c : Nat) : State :=
  match (s.core c).taken.find? fun o => o.phase == .queued && (match o.ins with
    | .cpy .. => (claimSlots s o).2.phase != .queued
    | _ => hqGoes s o) with
  | none => s
  | some o =>
    match o.ins with
    | .cpy .. => let (s, o) := claimSlots s o; putOp s o
    | _ => putOp s { o with phase := .started }

/-! ## Items (R274 to R281) -/

/-- No increment that an operation has sent is still on its way: until then its item is not complete (R271). -/
def incrsDone (s : State) (o : Op) : Bool := !(s.net.any fun i => i.src == o.core && i.srcOp == o.id)

/-- Can the next item of a taken command be performed, or the command end? A copy from a bobbin reads its next slot once that has
landed, or fails on it (R274). -/
def itemReady (s : State) (o : Op) : Bool :=
  match o.ins with
  | .cpy _ _ _ b _ _ =>
    if o.phase = .performed then (settled s o).isSome && incrsDone s o
    else if o.phase = .started && o.points = 0 then true
    else o.phase == .started && !isBob b && !o.waitsSlot (s.core o.core) &&
      (o.fails != 0 || o.slotState (s.core o.core) == .failed || mayWrite s o)
  | .cpyl .. => if o.phase = .performed then (settled s o).isSome && incrsDone s o else mayWrite s o
  | _ => false

/-- Perform the outer points of a copy between handles from the `n`-th. -/
def copyPoints (o : Op) (n : Nat) (s : State) : Nat → State × Option (Nat × Nat × Nat)
  | 0 => (s, none)
  | k + 1 =>
    match movePoint s o n with
    | (s, none) => copyPoints o (n + 1) s k
    | (s, some (q, ofs)) => (s, some (q, ofs, n))

/-- Rows of a list entry, `len` bytes each, until a byte fails (R278). -/
def copyRows (o : Op) (once : Bool) (e : ListEntry) (r : Nat) (s : State) : Nat → Moved
  | 0 => ⟨s, none⟩
  | k + 1 =>
    let src := wrap 64 ((e.src : Int) + ((r : Nat) : Int) * e.sstr)
    let dst := wrap 64 ((e.dst : Int) + ((r : Nat) : Int) * e.dstr)
    let moves := (upFrom 0 e.len).map fun i => Move.byte (some (src + i)) (dst + i)
    let m := moveAll o once e.ss e.ds moves (2 * r * e.len) s
    match m.fail with
    | some _ => m
    | none => copyRows o once e (r + 1) m.st k

/-- One item of a list: what it moved, and the cause and offset of its failure (R279). -/
def listItem (s : State) (o : Op) (sc : Scope) (i : Nat) : Moved :=
  match listEntry s o i with
  | .error k => ⟨s, some (k, 0)⟩
  | .ok e =>
    let s := s.useSide o (listSide o.ins) (o.a.toNat + 64 * i)
    if !e.ok then ⟨s, some (0x0E2, 0)⟩
    else if e.rf && !remoteOk s o sc e.rcore e.rtag e.rflg then ⟨s, some (0x0E3, 0)⟩
    else
      let m := if e.len = 0 then ⟨s, none⟩ else copyRows o (isOnce s o) e 0 s e.rows
      match m.fail with
      | some _ => m
      | none => ⟨if e.rf then sendOp m.st o (dieOf o.core) e.rcore e.rtag e.rflg 1 false else m.st, none⟩

/-- Record every item of a list from the `i`-th as not run (R279). -/
def notRun (o : Op) (i : Nat) (s : State) : Nat → State
  | 0 => s
  | k + 1 => notRun o (i + 1) (failItem s o 0x0E7 0 i) k

/-- Move outer point `n` of a copy from a bobbin: a failed slot fails the item, and once that has failed nothing more is moved (R274). -/
def slotMove (s : State) (o : Op) (b n : Nat) : State × Option (Nat × Nat) :=
  if o.fails ≠ 0 then (s, none)
  else if o.slotState (s.core o.core) = .failed then (s, some (0x099, n * (pointNibs o ((s.core o.core).ctx.bobbin b) / 2)))
  else movePoint s o n

/-- The next outer point of a copy from a bobbin: its slot is read, and its claim pops in turn (R194, R274). A failed item goes on with the
slots that it has claimed, as they land: DESIGN CHOICE (notes/assumptions/114.md). -/
def slotPoint (s : State) (o : Op) (b : Nat) : State :=
  let n := o.idx
  let (s, fail) := slotMove s o b n
  let (s, o) := match fail with
    | some (k, ofs) => (failItem s o k ofs n, { o with fails := 1 })
    | none => (s, o)
  let s := modOpBobbin s o b fun bo => bo.release o.id
  let o := { o with idx := n + 1 }
  if o.idx = o.points then copyDone s o else putOp s o

/-- The next item of a list (R279). -/
def listStep (s : State) (o : Op) (sc : Scope) (stop : Bool) : State :=
  let i := o.idx
  let n := o.b.toNat
  let m := listItem s o sc i
  let (s, o) := match m.fail with
    | some (k, ofs) =>
      let s := failItem m.st o k ofs i
      if stop then (notRun o (i + 1) s (n - (i + 1)), { o with idx := n, fails := 1 }) else (s, { o with idx := i + 1, fails := 1 })
    | none => (m.st, { o with idx := i + 1 })
  putOp s { o with err := none, phase := if o.idx = n then .performed else .started }

/-- The oldest command that can perform an item does so, and a command all of whose items are done ends (R280, R281). The items of a
list run strictly one after another, and of the commands that could go on the oldest does: DESIGN CHOICE (notes/assumptions/89.md). -/
def itemComplete (s : State) (c : Nat) : State :=
  match (s.core c).taken.find? (itemReady s) with
  | none => s
  | some o =>
    if o.phase = .performed then finishOp s o else
    match o.ins, storeBob o.ins with
    | .cpyl _ _ _ _ sc stop _, _ => listStep s o sc stop
    | _, src =>
      if o.points = 0 then copyDone s o else
      match src with
      | some b => slotPoint s o b
      | none =>
        match copyPoints o 0 s o.points with
        | (s, some (k, ofs, n)) => copyDone (failItem s o k ofs n) { o with fails := 1 }
        | (s, none) => copyDone s o

/-! ## Hatch queues (R377) -/

/-- The partition a queue's ring belongs to: that of the granule of its first entry (R376), or 8. -/
def hatchOwner (s : State) (name : Nat) : Nat := granulePart s (name / 256 % 4) ((s.hatchOf name).line 0 / 0x200000)

/-- The place of a hatch entry. A ring has to lie whole in granules of one partition, that of its consumer or its producer; any other
place is a boundary fault (R14, R24, R376; notes/assumptions/97.md). -/
def hatchPlace (s : State) (name line : Nat) : Option Nat :=
  let h := s.hatchOf name
  let p := hatchOwner s name
  let party := clusterPart s (clusterOf (bvField h.bnd 40 8)) == p || (!h.cfg.getLsbD 62 && clusterPart s (clusterOf (bvField h.bnd 8 8)) == p)
  if line + 64 ≤ 0x8000000 ∧ p < 8 ∧ granulePart s (name / 256 % 4) (line / 0x200000) = p ∧ party then some line else none

def isHq : Instr → Bool
  | .hqpush .. | .hqpop .. => true
  | _ => false

/-- A hatch-queue command has moved its line: it ends once its far increment has been applied (R271, R377). -/
def hqEnd (s : State) (o : Op) : State := if incrsDone s o && (settled s o).isSome then finishOp s o else s

/-- What a repeated HQPOP writes into core scratchpad stays as the first run left it; a rerun's signature takes what lies there, and of an
HQPUSH the line at the ring address that its result kept (R403, R404). -/
def hqRepeat (s : State) (o : Op) : State :=
  if o.fails ≠ 0 then s else
  match o.ins with
  | .hqpop .. => noteSig s o.core o.id (.core o.core) o.b.toNat (readBytes s (.core o.core) o.b.toNat 64)
  | _ => noteSig s o.core o.id (.die (o.a.toNat / 256 % 4)) o.val.toNat (readBytes s (.core o.core) o.b.toNat 64)

/-- The engine moves the line of a hatch-queue command, the pointers follow, and the far flag rises (R377). -/
def hqLine (s : State) (o : Op) : State :=
  let name := o.a.toNat
  let h := s.hatchOf name
  let die := name / 256 % 4
  let c := o.core
  let push := match o.ins with
    | .hqpush .. => true
    | _ => false
  match hatchPlace s name (h.line (if push then h.tail else h.head)), o.err with
  | none, _ => finishOp (failItem s o 0x0E6 0 0) { o with fails := 1 }
  | some _, some (n, k) => finishOp (failItem s o k n 0) { o with fails := 1 }
  | some a, none =>
    let s := putOp s { o with phase := .performed, val := BitVec.ofNat 64 a }
    if push then
      sendOp ((opWrite s o true (.die die) a (readBytes s (.core c) o.b.toNat 64)).setHatch name h.push)
        o die (bvField h.bnd 40 8) (bvField h.bnd 48 16) (bvField h.bnd 35 5) 1 false
    else
      let s := (opWrite s o true (.core c) o.b.toNat (readBytes s (.die die) a 64)).setHatch name h.pop
      if h.cfg.getLsbD 62 then s else sendOp s o die (bvField h.bnd 8 8) (bvField h.bnd 16 16) (bvField h.bnd 3 5) 1 false

/-- The hatch-queue command that the engine holds goes on (R377): not before everything its core issued earlier (E4 of R249), and where
its queue lies on another die not before the clock lets it (R254). -/
def hqMove (s : State) (c : Nat) : State :=
  match (s.core c).taken.find? fun o => isHq o.ins && o.phase != .queued with
  | none => s
  | some o =>
    if o.phase = .performed then hqEnd s o
    else if o.orig.isSome then
      match settled s o with
      | some p => finishOp (hqRepeat s p) o
      | none => s
    else if hqGoes s o && mayWrite s o && clockLets s (dieOf c) (.die (o.a.toNat / 256 % 4)) 0 then hqLine s o else s

/-! ## Increments (R268 to R272) -/

/-- Does an increment for a tag reach live flags: the core's context, not away (R271, R272)? Tag 0 is no context's. -/
def Core.liveTag (x : Core) (t : BitVec 16) : Bool :=
  x.ctag == t && t != 0#16 && (x.awayOf t).isNone && x.saved == .no && x.act != .stopped && x.act != .retired

/-- Add to the pending-increment buffer; none when it is full (R271). -/
def pibAdd (l : List PibEntry) (t : BitVec 16) (f n : Nat) : Option (List PibEntry) :=
  if l.any fun e => e.ctag == t && e.flag == f then
    some (l.map fun e => if e.ctag == t && e.flag == f then { e with amt := min 1048575 (e.amt + n) } else e)
  else if l.length ≥ 64 then none
  else some (l ++ [⟨t, f, n⟩])

/-- A POST whose increment has arrived completes (R286). -/
def postDone (s : State) (src id : Nat) : State :=
  match (s.core src).sy.find? fun o => o.id == id with
  | some o => dropOutstanding (onceDone (s.modCore src fun x => { x with sy := removeOp id x.sy }) o) o
  | none => s

/-- What ends with an increment's arrival: the POST that sent it, or the item whose completion it is, which is outstanding no longer
(R267, R271, R286). -/
def incrDone (s : State) (i : Incr) : State :=
  if i.post then postDone s i.src i.srcOp else if i.counts then giveBack s i.src i.ctag else s

/-- An increment is applied to live flags; an open checkpoint takes note of one that its rerun will not send again (R403). -/
def incrApply (s : State) (i : Incr) : State :=
  s.modCore i.core fun x =>
    { x with
      ctx := x.ctx.bump i.flag i.amt
      ckpt := x.ckpt.map fun k =>
        if i.src = i.core && decide (k.first ≤ i.srcOp) then k else { k with flagsIn := k.flagsIn ++ [(i.flag, i.amt)] } }

/-- Every access its sender issued before the operation that sent it is performed (E4 and E5 of R249, R282), and the clock of the die
it left lets it reach its core's (R254). -/
def incrMay (s : State) (i : Incr) : Bool :=
  (i.free || performedBefore s i.src i.srcOp) && (i.die == dieOf i.core || clockAllows s i.clock i.die (dieOf i.core))

/-- The `n`-th increment on its way reaches its core, when it may (R249, R254, R269); a full buffer leaves it in the network, and its
item incomplete (R271). -/
def incrArrive (s : State) (n : Nat) : State :=
  match s.net[n]? with
  | none => s
  | some i =>
    let x := s.core i.core
    if !incrMay s i then s else
    let drop := fun (s : State) => incrDone { s with net := s.net.eraseIdx n } i
    if x.liveTag i.ctag then drop (incrApply s i)
    else
      match pibAdd x.pib i.ctag i.flag i.amt with
      | none => s
      | some l =>
        let s := s.modCore i.core fun x => { x with pib := l }
        drop (if decide (l.length ≥ 48) && decide (x.pib.length < l.length) && !x.held.any (·.cause == 0x0E8) then
            s.hold i.core ⟨0x0E8, 0, 0, 0, 0, true, true⟩
          else s)

/-- May the increment be taken in by its core now? -/
def incrFits (s : State) (i : Incr) : Bool :=
  incrMay s i && ((s.core i.core).liveTag i.ctag || (pibAdd (s.core i.core).pib i.ctag i.flag i.amt).isSome)

/-- The first increment on its way that can arrive does. -/
def incrNext (s : State) : State :=
  match s.net.findIdx? (incrFits s) with
  | some n => incrArrive s n
  | none => s

/-- PIBWIN's read removes the oldest entry (R289). -/
def pibPop (s : State) (c : Nat) : State := s.modCore c fun x => { x with pib := x.pib.tail }

def execCopyCommandTake (c : Nat) (s : State) : Host.Outcome State Fault Refusal := event s fun s => copyTake s c
def execEngineWaitEnd (c : Nat) (s : State) : Host.Outcome State Fault Refusal := event s fun s => engineWaitEnd s c
def execCopyItemComplete (c : Nat) (s : State) : Host.Outcome State Fault Refusal := event s fun s => itemComplete s c
def execHqEntryMove (c : Nat) (s : State) : Host.Outcome State Fault Refusal := event s fun s => hqMove s c
def execIncrementArrival (n : Nat) (s : State) : Host.Outcome State Fault Refusal := event s fun s => incrArrive s n
def execPibwinRead (c : Nat) (s : State) : Host.Outcome State Fault Refusal := event s fun s => pibPop s c
def execKwinWrite (c : Nat) (v : Word) (s : State) : Host.Outcome State Fault Refusal := event s fun s => sysWrite s c 18 v
def execKsatWrite (c : Nat) (v : Word) (s : State) : Host.Outcome State Fault Refusal := event s fun s => sysWrite s c 19 v

end Sys2Proof.Machine
end

