-- ==== Sys2Proof/Machine/Sync.lean ====
section
/-! DEFINITION. Machine/Sync.lean: AWAIT, POST, WAITQ and FLUSHY (R283 to R287), SYNCD, YIELD and SETDMR (R368 to R374). -/

namespace Sys2Proof.Machine

/-! ## Flags -/

/-- A result of sy at latency 1 (R283, R372). -/
def syResult (s : State) (e : Bool) (d : Port) (v : Word) : State := s.result .sy 7 1 e d v 0#8

/-- Lower a flag. -/
def Ctx.lower (x : Ctx) (f n : Nat) : Ctx := { x with k := vset x.k f (BitVec.ofNat 20 (x.flagVal f - n)) }

def execAwait (g : Guard) (e : Bool) (d a b : Port) (cons : Bool) (s : State) : Host.Outcome State Fault Refusal :=
  issue (.await g e d a b cons) s fun s =>
    match kOf a with
    | some f =>
      let v := s.ctx.flagVal f
      let n := (s.ctx.val b).toNat
      let s := syResult s e d (BitVec.ofNat 64 v)
      if cons then s.modMyCtx fun x => x.lower f n else s
    | none => s
def execWaitq (g : Guard) (e : Bool) (d a : Port) (s : State) : Host.Outcome State Fault Refusal :=
  issue (.waitq g e d a) s fun s =>
    match waitqFlag s.ctx (bvField (s.ctx.val a) 0 32) with
    | some f => (syResult s e d (BitVec.ofNat 64 f)).modMyCtx fun x => x.lower f 1
    | none => s
def execFlushy (g : Guard) (e : Bool) (d : Port) (s : State) : Host.Outcome State Fault Refusal :=
  issue (.flushy g e d) s fun s =>
    (syResult s e d (BitVec.ofNat 64 (min 65535 s.me.failn))).modMe fun x => { x with failn := 0 }

/-! ## POST (R286) -/

/-- A POST enters sy's queue. One of amount 0 is a fence of its scope from then on (R254, R257, R286). -/
def execPost (g : Guard) (d a b c : Port) (sc : Scope) (rmt : Bool) (s : State) : Host.Outcome State Fault Refusal :=
  issue (.post g d a b c sc rmt) s fun s =>
    let s := if s.ctx.val a = 0 then fenceEpoch sc s else s
    submit s (s.mkOp (.post g d a b c sc rmt) (s.ctx.val a) (s.ctx.val b) (s.ctx.val c) 0 0 0 0) true fun x o =>
      { x with sy := x.sy ++ [o] }

/-- The target of a POST: core, tag, flag. -/
def postTarget (o : Op) : Nat × Nat × Nat :=
  match o.ins with
  | .post _ d _ _ _ _ rmt =>
    let f := (kOf d).getD 0
    if rmt then (o.b.toNat, bvField o.c 0 16, f) else (o.core, o.ctag.toNat, f)
  | _ => (o.core, o.ctag.toNat, 0)

/-- A POST completes: it leaves sy's queue and the outstanding count (R267, R286). -/
def postEnd (s : State) (o : Op) : State :=
  dropOutstanding (onceDone (s.modCore o.core fun x => { x with sy := removeOp o.id x.sy }) o) o

/-- The oldest queued POST sends its increment once every earlier access of the core is performed and no fence is pending
before it (R257, R286). A repeated POST of a rerun sends none to another context (R404). -/
def postSend (s : State) (c : Nat) : State :=
  let x := s.core c
  match x.sy.find? fun o => o.phase == .queued with
  | none => s
  | some o =>
    if fencedBefore x o || !x.sends o || !performedBefore s c o.id then s else
      match settled s o with
      | none => s
      | some _ =>
        let (core, tag, f) := postTarget o
        let own := core == c && tag == o.ctag.toNat
        if o.a = 0 || (o.orig.isSome && !own) then postEnd s o
        else if leftToRerun s o && own then postEnd s o
        else
          let s := s.modCore c fun x => { x with sy := replaceOp { o with phase := .started } x.sy }
          sendOp s o (dieOf c) core tag f o.a.toNat true

/-! ## Domains (R368 to R373) -/

def execSyncd (g : Guard) (e : Bool) (d : Port) (lv : BitVec 3) (s : State) : Host.Outcome State Fault Refusal :=
  issue (.syncd g e d lv) s fun s =>
    if lv = 0#3 then
      let n := s.me.phase0 + 1
      (syResult (issueFence (.fence g .core) .core s) e d (n.setWidth 64)).modMe fun x => { x with phase0 := n }
    else
      let n := s.me.phaseEnd.getD 0
      (syResult s e d (n.setWidth 64)).modMe fun x => { x with phaseEnd := none }
def execSetdmr (g : Guard) (e : Bool) (d a : Port) (rd : Bool) (s : State) : Host.Outcome State Fault Refusal :=
  issue (.setdmr g e d a rd) s fun s =>
    let t := s.launch .sy 7 1 0#8 (destWrs .sy e d s.ctx.dmr)
    if rd then t else t.launch .sy 7 1 0#8 [.dmr (s.ctx.val a)]

/-- An arrival from a member on another module reaches a level-4 domain (R368). -/
def groupArrival (s : State) (p h col gid : Nat) : State :=
  if (s.tcb p h).state = .running then settleDomains (s.modTcb p h fun t => { t with remote := t.remote ++ [(col, gid)] }) else s

/-! ## YIELD (R374) -/

/-- The result is 0 unless the context is pre-empted when it lands (R393). -/
def execYieldc (g : Guard) (e : Bool) (d a : Port) (s : State) : Host.Outcome State Fault Refusal :=
  issue (.yieldc g e d a) s fun s =>
    (syResult s e d 0).modMe fun x =>
      if x.mode = .u then { x with yielding := some (d, e, (s.ctx.val a).setWidth 32) } else x

/-- What the buffer holds for a flag of a context (R271). -/
def pibHas (x : Core) (t : BitVec 16) (f : Nat) : Bool := x.pib.any fun e => e.ctag == t && e.flag == f && decide (1 ≤ e.amt)

/-- Some masked flag of a yielded context is at least 1, buffered increments counted. -/
def wakes (x : Core) (t : BitVec 16) (m : BitVec 32) (flag : Nat → Nat) : Bool :=
  (upFrom 0 32).any fun f => m.getLsbD f && (decide (1 ≤ flag f) || pibHas x t f)

/-- A yielded context may be resumed once a masked flag is at least 1 (R374). -/
def contextResume (s : State) (c : Nat) : State :=
  let x := s.core c
  let s := match x.yielded with
    | some m => if wakes x x.ctag m x.ctx.flagVal then s.modCore c fun x => { x with yielded := none } else s
    | none => s
  s.modCore c fun x => { x with parked := x.parked.map fun k => match k.yielded with
    | some m => if wakes x k.ctag m (fun f => awayGet s c (k.flagsAt + 4 * f) 4) then { k with yielded := none } else k
    | none => k }

def execPostSend (c : Nat) (s : State) : Host.Outcome State Fault Refusal := event s fun s => postSend s c
def execContextResume (c : Nat) (s : State) : Host.Outcome State Fault Refusal := event s fun s => contextResume s c
def execGroupDomainArrival (p h col gid : Nat) (s : State) : Host.Outcome State Fault Refusal :=
  event s fun s => groupArrival s p h col gid

end Sys2Proof.Machine
end

