-- ==== Sys2Proof/Machine/Vector.lean ====
section
/-! DEFINITION. Machine/Vector.lean: the row instructions of va and sf (R145 to R168). What each row does stands in
Rows.lean; here is what happens at issue. -/

namespace Sys2Proof.Machine

/-- The lane type of a row instruction and the tag it gives a void destination (R142, R146, R153 to R166). -/
def rowTags (x : Ctx) (i : Instr) : Tag × Tag :=
  let t := match i with
    | .vadd _ d a b _ _ _ => x.rowType d [a, b]
    | .vsub _ d a b _ _ _ => x.rowType d [a, b]
    | .vmul _ d a b _ _ _ => x.rowType d [a, b]
    | .vmin _ d a b _ _ => x.rowType d [a, b]
    | .vmax _ d a b _ _ => x.rowType d [a, b]
    | .vcmp _ d a b _ _ _ => x.rowType d [a, b]
    | .vand _ d a b _ _ => x.rowType d [a, b]
    | .vor _ d a b _ _ => x.rowType d [a, b]
    | .vxor _ d a b _ _ => x.rowType d [a, b]
    | .vshl _ d a b _ _ => x.rowType d [a, b]
    | .vshr _ d a b _ _ _ => x.rowType d [a, b]
    | .vaddp8 _ d a b _ _ _ => x.rowType d [a, b]
    | .vmulp8 _ d a b _ _ _ => x.rowType d [a, b]
    | .vfma _ d a b c _ _ _ => x.rowType d [a, b, c]
    | .vsel _ d a b c _ _ => x.rowType d [a, b, c]
    | .vabs _ d a _ _ => x.rowType d [a]
    | .vneg _ d a _ _ => x.rowType d [a]
    | .vcvt _ _ a _ _ _ _ _ => x.tagOf a
    | .vmaxr _ _ _ a _ _ _ => x.tagOf a
    | .vperm _ _ a _ _ _ => x.tagOf a
    | .vrow _ _ a _ _ _ => x.tagOf a
    | .vsum _ _ _ a _ _ _ => x.tagOf a
    | .vmred _ _ _ b _ _ _ _ => x.tagOf b
    | .vmscan _ _ _ b _ _ _ _ => x.tagOf b
    | .vbcast _ _ _ fmt _ _ => Tag.ofFmt fmt
    | .vband _ _ _ _ _ _ => .int32
    | .visect _ _ _ _ _ _ _ _ => .int32
    | .vpfx _ _ _ _ _ _ => .int32
    | .vpopc _ _ _ _ _ => .int32
    | .vqnt .. | .vdq .. | .vlsem .. => .fp32
    | i => match sfSrc i with
      | some a => x.rowType (rowDest i) [a]
      | none => .void
  match i with
  | .vcvt _ _ _ _ fmt _ _ _ => (t, cvtTag fmt)
  | .vqnt .. => (t, .int32)
  | _ => (t, t)

/-- Retag the destination at issue: a void tile takes the tag; VCVT also changes another tag, zeroing the rows (R142, R153). -/
def Ctx.rowRetag (x : Ctx) (i : Instr) : Ctx :=
  let dty := (rowTags x i).2
  match rowDest i with
  | .tile t => if x.tagOf (.tile t) = dty then x else x.zeroTile t.val dty
  | _ => x

/-- The group size of a parameter tile's group 0, read at issue (R154). -/
def Ctx.grpAt (x : Ctx) (fmt : Fmt) (b : Port) (rf : BitVec 6) : Nat :=
  if fmt = .g8 ∨ fmt = .g4 then grpSize (laneAt (x.row (tOf b) rf.toNat) 32 0 / 2 ^ 30) else 0

/-- Issue of a row instruction: its scalar operands are read, its destination is tagged, and it joins its unit (R142, R146,
R147). -/
def rowEffect (i : Instr) (sfu : Bool) (a b c : Word) (acc : Word) (grp : Nat) (s : State) : State :=
  s.modMyCtx fun x =>
    let (ty, dty) := rowTags x i
    let o : RowOp := ⟨s.nextId, i, a, b, c, ty, dty, (rowRange i).1, acc, 0, 0, grp, false⟩
    (x.rowRetag i).rowIssue sfu o

def execVadd (g : Guard) (d a b : Port) (rm : Rnd) (rf : BitVec 6) (nl : BitVec 5) (s : State) :
    Host.Outcome State Fault Refusal :=
  issue (.vadd g d a b rm rf nl) s fun s => rowEffect (.vadd g d a b rm rf nl) false (s.ctx.val a) (s.ctx.val b) 0 0 0 s
def execVsub (g : Guard) (d a b : Port) (rm : Rnd) (rf : BitVec 6) (nl : BitVec 5) (s : State) :
    Host.Outcome State Fault Refusal :=
  issue (.vsub g d a b rm rf nl) s fun s => rowEffect (.vsub g d a b rm rf nl) false (s.ctx.val a) (s.ctx.val b) 0 0 0 s
def execVmul (g : Guard) (d a b : Port) (rm : Rnd) (rf : BitVec 6) (nl : BitVec 5) (s : State) :
    Host.Outcome State Fault Refusal :=
  issue (.vmul g d a b rm rf nl) s fun s => rowEffect (.vmul g d a b rm rf nl) false (s.ctx.val a) (s.ctx.val b) 0 0 0 s
def execVfma (g : Guard) (d a b c : Port) (rm : Rnd) (rf : BitVec 6) (nl : BitVec 5) (s : State) :
    Host.Outcome State Fault Refusal :=
  issue (.vfma g d a b c rm rf nl) s fun s => rowEffect (.vfma g d a b c rm rf nl) false (s.ctx.val a) (s.ctx.val b) (s.ctx.val c) 0 0 s
def execVmin (g : Guard) (d a b : Port) (rf : BitVec 6) (nl : BitVec 5) (s : State) :
    Host.Outcome State Fault Refusal :=
  issue (.vmin g d a b rf nl) s fun s => rowEffect (.vmin g d a b rf nl) false (s.ctx.val a) (s.ctx.val b) 0 0 0 s
def execVmax (g : Guard) (d a b : Port) (rf : BitVec 6) (nl : BitVec 5) (s : State) :
    Host.Outcome State Fault Refusal :=
  issue (.vmax g d a b rf nl) s fun s => rowEffect (.vmax g d a b rf nl) false (s.ctx.val a) (s.ctx.val b) 0 0 0 s
def execVabs (g : Guard) (d a : Port) (rf : BitVec 6) (nl : BitVec 5) (s : State) :
    Host.Outcome State Fault Refusal :=
  issue (.vabs g d a rf nl) s fun s => rowEffect (.vabs g d a rf nl) false (s.ctx.val a) 0 0 0 0 s
def execVneg (g : Guard) (d a : Port) (rf : BitVec 6) (nl : BitVec 5) (s : State) :
    Host.Outcome State Fault Refusal :=
  issue (.vneg g d a rf nl) s fun s => rowEffect (.vneg g d a rf nl) false (s.ctx.val a) 0 0 0 0 s
def execVcmp (g : Guard) (d a b : Port) (cond : VCond) (rf : BitVec 6) (nl : BitVec 5) (s : State) :
    Host.Outcome State Fault Refusal :=
  issue (.vcmp g d a b cond rf nl) s fun s => rowEffect (.vcmp g d a b cond rf nl) false (s.ctx.val a) (s.ctx.val b) 0 0 0 s
def execVsel (g : Guard) (d a b c : Port) (rf : BitVec 6) (nl : BitVec 5) (s : State) :
    Host.Outcome State Fault Refusal :=
  issue (.vsel g d a b c rf nl) s fun s => rowEffect (.vsel g d a b c rf nl) false (s.ctx.val a) (s.ctx.val b) (s.ctx.val c) 0 0 s
def execVand (g : Guard) (d a b : Port) (rf : BitVec 6) (nl : BitVec 5) (s : State) :
    Host.Outcome State Fault Refusal :=
  issue (.vand g d a b rf nl) s fun s => rowEffect (.vand g d a b rf nl) false (s.ctx.val a) (s.ctx.val b) 0 0 0 s
def execVor (g : Guard) (d a b : Port) (rf : BitVec 6) (nl : BitVec 5) (s : State) :
    Host.Outcome State Fault Refusal :=
  issue (.vor g d a b rf nl) s fun s => rowEffect (.vor g d a b rf nl) false (s.ctx.val a) (s.ctx.val b) 0 0 0 s
def execVxor (g : Guard) (d a b : Port) (rf : BitVec 6) (nl : BitVec 5) (s : State) :
    Host.Outcome State Fault Refusal :=
  issue (.vxor g d a b rf nl) s fun s => rowEffect (.vxor g d a b rf nl) false (s.ctx.val a) (s.ctx.val b) 0 0 0 s
def execVshl (g : Guard) (d a b : Port) (rf : BitVec 6) (nl : BitVec 5) (s : State) :
    Host.Outcome State Fault Refusal :=
  issue (.vshl g d a b rf nl) s fun s => rowEffect (.vshl g d a b rf nl) false (s.ctx.val a) (s.ctx.val b) 0 0 0 s
def execVshr (g : Guard) (d a b : Port) (ar : Bool) (rf : BitVec 6) (nl : BitVec 5) (s : State) :
    Host.Outcome State Fault Refusal :=
  issue (.vshr g d a b ar rf nl) s fun s => rowEffect (.vshr g d a b ar rf nl) false (s.ctx.val a) (s.ctx.val b) 0 0 0 s
def execVcvt (g : Guard) (d a b : Port) (fmt : Fmt) (rm : Rnd) (rf : BitVec 6) (nl : BitVec 5) (s : State) :
    Host.Outcome State Fault Refusal :=
  issue (.vcvt g d a b fmt rm rf nl) s fun s => rowEffect (.vcvt g d a b fmt rm rf nl) false (s.ctx.val a) (s.ctx.val b) 0 0 0 s
def execVqnt (g : Guard) (d a b : Port) (fmt : Fmt) (rm : Rnd) (rf : BitVec 6) (nl : BitVec 5) (s : State) :
    Host.Outcome State Fault Refusal :=
  issue (.vqnt g d a b fmt rm rf nl) s fun s => rowEffect (.vqnt g d a b fmt rm rf nl) false (s.ctx.val a) (s.ctx.val b) 0 0 (s.ctx.grpAt fmt b rf) s
def execVdq (g : Guard) (d a b c : Port) (fmt : Fmt) (rm : Rnd) (rf : BitVec 6) (nl : BitVec 5) (s : State) :
    Host.Outcome State Fault Refusal :=
  issue (.vdq g d a b c fmt rm rf nl) s fun s => rowEffect (.vdq g d a b c fmt rm rf nl) false (s.ctx.val a) (s.ctx.val b) (s.ctx.val c) 0 (s.ctx.grpAt fmt b rf) s
def execVaddp8 (g : Guard) (d a b : Port) (fmt : Fmt) (rf : BitVec 6) (nl : BitVec 5) (s : State) :
    Host.Outcome State Fault Refusal :=
  issue (.vaddp8 g d a b fmt rf nl) s fun s => rowEffect (.vaddp8 g d a b fmt rf nl) false (s.ctx.val a) (s.ctx.val b) 0 0 0 s
def execVmulp8 (g : Guard) (d a b : Port) (fmt : Fmt) (rf : BitVec 6) (nl : BitVec 5) (s : State) :
    Host.Outcome State Fault Refusal :=
  issue (.vmulp8 g d a b fmt rf nl) s fun s => rowEffect (.vmulp8 g d a b fmt rf nl) false (s.ctx.val a) (s.ctx.val b) 0 0 0 s
def execVbcast (g : Guard) (d a : Port) (fmt : Fmt) (rf : BitVec 6) (nl : BitVec 5) (s : State) :
    Host.Outcome State Fault Refusal :=
  issue (.vbcast g d a fmt rf nl) s fun s => rowEffect (.vbcast g d a fmt rf nl) false (s.ctx.val a) 0 0 0 0 s
def execVrow (g : Guard) (d a : Port) (sf rf : BitVec 6) (nl : BitVec 5) (s : State) :
    Host.Outcome State Fault Refusal :=
  issue (.vrow g d a sf rf nl) s fun s => rowEffect (.vrow g d a sf rf nl) false (s.ctx.val a) 0 0 0 0 s
def execVperm (g : Guard) (d a b : Port) (rf : BitVec 6) (nl : BitVec 5) (s : State) :
    Host.Outcome State Fault Refusal :=
  issue (.vperm g d a b rf nl) s fun s => rowEffect (.vperm g d a b rf nl) false (s.ctx.val a) (s.ctx.val b) 0 0 0 s
def execVsum (g : Guard) (e : Bool) (d a : Port) (rm : Rnd) (rf : BitVec 6) (nl : BitVec 5) (s : State) :
    Host.Outcome State Fault Refusal :=
  issue (.vsum g e d a rm rf nl) s fun s => rowEffect (.vsum g e d a rm rf nl) false (s.ctx.val a) 0 0 0 0 s
def execVmaxr (g : Guard) (e : Bool) (d a : Port) (arg : Bool) (rf : BitVec 6) (nl : BitVec 5) (s : State) :
    Host.Outcome State Fault Refusal :=
  issue (.vmaxr g e d a arg rf nl) s fun s => rowEffect (.vmaxr g e d a arg rf nl) false (s.ctx.val a) 0 0 0 0 s
def execVmred (g : Guard) (d a b : Port) (cop : RedOp) (rm : Rnd) (rf : BitVec 6) (nl : BitVec 5) (s : State) :
    Host.Outcome State Fault Refusal :=
  issue (.vmred g d a b cop rm rf nl) s fun s => rowEffect (.vmred g d a b cop rm rf nl) false (s.ctx.val a) (s.ctx.val b) 0 0 0 s
def execVmscan (g : Guard) (d a b : Port) (cop : RedOp) (rm : Rnd) (rf : BitVec 6) (nl : BitVec 5) (s : State) :
    Host.Outcome State Fault Refusal :=
  issue (.vmscan g d a b cop rm rf nl) s fun s => rowEffect (.vmscan g d a b cop rm rf nl) false (s.ctx.val a) (s.ctx.val b) 0 0 0 s
def execVband (g : Guard) (d a b : Port) (rf : BitVec 6) (nl : BitVec 5) (s : State) :
    Host.Outcome State Fault Refusal :=
  issue (.vband g d a b rf nl) s fun s => rowEffect (.vband g d a b rf nl) false (s.ctx.val a) (s.ctx.val b) 0 0 0 s
def execVpopc (g : Guard) (d a : Port) (rf : BitVec 6) (nl : BitVec 5) (s : State) :
    Host.Outcome State Fault Refusal :=
  issue (.vpopc g d a rf nl) s fun s => rowEffect (.vpopc g d a rf nl) false (s.ctx.val a) 0 0 0 0 s
def execVpfx (g : Guard) (d a b : Port) (rf : BitVec 6) (nl : BitVec 5) (s : State) :
    Host.Outcome State Fault Refusal :=
  issue (.vpfx g d a b rf nl) s fun s => rowEffect (.vpfx g d a b rf nl) false (s.ctx.val a) (s.ctx.val b) 0 (s.ctx.val b) 0 s
def execVisect (g : Guard) (e : Bool) (d a b c : Port) (rf : BitVec 6) (nl : BitVec 5) (s : State) :
    Host.Outcome State Fault Refusal :=
  issue (.visect g e d a b c rf nl) s fun s => rowEffect (.visect g e d a b c rf nl) false (s.ctx.val a) (s.ctx.val b) (s.ctx.val c) (s.ctx.val c) 0 s
def execVlsem (g : Guard) (d a b : Port) (rf : BitVec 6) (nl : BitVec 5) (s : State) :
    Host.Outcome State Fault Refusal :=
  issue (.vlsem g d a b rf nl) s fun s => rowEffect (.vlsem g d a b rf nl) false (s.ctx.val a) (s.ctx.val b) 0 0 0 s
def execExp2 (g : Guard) (d a : Port) (rf : BitVec 6) (nl : BitVec 5) (s : State) :
    Host.Outcome State Fault Refusal :=
  issue (.exp2 g d a rf nl) s fun s => rowEffect (.exp2 g d a rf nl) true (s.ctx.val a) 0 0 0 0 s
def execLog2 (g : Guard) (d a : Port) (rf : BitVec 6) (nl : BitVec 5) (s : State) :
    Host.Outcome State Fault Refusal :=
  issue (.log2 g d a rf nl) s fun s => rowEffect (.log2 g d a rf nl) true (s.ctx.val a) 0 0 0 0 s
def execRcp (g : Guard) (d a : Port) (rm : Rnd) (rf : BitVec 6) (nl : BitVec 5) (s : State) :
    Host.Outcome State Fault Refusal :=
  issue (.rcp g d a rm rf nl) s fun s => rowEffect (.rcp g d a rm rf nl) true (s.ctx.val a) 0 0 0 0 s
def execRsqrt (g : Guard) (d a : Port) (rm : Rnd) (rf : BitVec 6) (nl : BitVec 5) (s : State) :
    Host.Outcome State Fault Refusal :=
  issue (.rsqrt g d a rm rf nl) s fun s => rowEffect (.rsqrt g d a rm rf nl) true (s.ctx.val a) 0 0 0 0 s
def execSqrt (g : Guard) (d a : Port) (rm : Rnd) (rf : BitVec 6) (nl : BitVec 5) (s : State) :
    Host.Outcome State Fault Refusal :=
  issue (.sqrt g d a rm rf nl) s fun s => rowEffect (.sqrt g d a rm rf nl) true (s.ctx.val a) 0 0 0 0 s
def execSin (g : Guard) (d a : Port) (rf : BitVec 6) (nl : BitVec 5) (s : State) :
    Host.Outcome State Fault Refusal :=
  issue (.sin g d a rf nl) s fun s => rowEffect (.sin g d a rf nl) true (s.ctx.val a) 0 0 0 0 s
def execCos (g : Guard) (d a : Port) (rf : BitVec 6) (nl : BitVec 5) (s : State) :
    Host.Outcome State Fault Refusal :=
  issue (.cos g d a rf nl) s fun s => rowEffect (.cos g d a rf nl) true (s.ctx.val a) 0 0 0 0 s
def execTanh (g : Guard) (d a : Port) (rf : BitVec 6) (nl : BitVec 5) (s : State) :
    Host.Outcome State Fault Refusal :=
  issue (.tanh g d a rf nl) s fun s => rowEffect (.tanh g d a rf nl) true (s.ctx.val a) 0 0 0 0 s

/-- VROW.rel (R159): the tile is void at issue. -/
def execVrowRel (g : Guard) (d : Port) (s : State) : Host.Outcome State Fault Refusal :=
  issue (.vrowRel g d) s fun s => s.modMyCtx fun x => x.zeroTile (tOf d) .void

end Sys2Proof.Machine
end

