-- ==== Sys2Proof/Machine/System.lean ====
section
/-! DEFINITION. Machine/System.lean: system registers, traps and their return, NOP, markers, checkpoints, and the events of
landing, refresh, breakpoints, errors and trace (R54, R115, R117, R136, R227, R385, R390, R391, R400 to R415). -/

namespace Sys2Proof.Machine

/-! ## System registers (R136) -/

def sysNum : Port → Nat
  | .sys n => n.val
  | _ => 0

/-- SYSRD: the value at issue; a read of PIBWIN takes the entry it returns (R289). -/
def execSysrd (g : Guard) (e : Bool) (d a : Port) (s : State) : Host.Outcome State Fault Refusal :=
  issue (.sysrd g e d a) s fun s =>
    let t := s.result .sy 7 2 e d (sysRead s s.cur (sysNum a)) 0#8
    if sysNum a = 20 then pibPop t s.cur else t
def execSyswr (g : Guard) (d a : Port) (s : State) : Host.Outcome State Fault Refusal :=
  issue (.syswr g d a) s fun s => s.launch .sy 7 1 0#8 [.sysreg (sysNum d) (s.ctx.val a)]

/-! ## Traps, NOP and ERET (R54, R390, R391) -/

/-- A cause at the end of its group's cycle: with the other slots of its group, or, as a bundle of its own, at once. -/
def endTrap (h : Held) (s : State) : State :=
  if s.me.committing then s.modMe fun x => x.addDue h
  else freeze (s.modMe fun x => x.endCycle true false) s.cur h true s.ctx.scyc

def execTrap (g : Guard) (code : BitVec 16) (s : State) : Host.Outcome State Fault Refusal :=
  issue (.trap g code) s (endTrap ⟨0x171, 0x80#8, code, 0, 0, false, false⟩)
/-- BKPT has an effect with TVEC.DBG = 1, in U mode. -/
def execBkpt (g : Guard) (btag : BitVec 16) (s : State) : Host.Outcome State Fault Refusal :=
  issue (.bkpt g btag) s fun s =>
    if s.me.tvec.getLsbD 62 && s.me.mode == .u then endTrap ⟨0x172, 0x80#8, btag, 0, 0, false, false⟩ s else s
/-- The empty cycles follow the group, one by one. -/
def execNop (g : Guard) (count : BitVec 16) (s : State) : Host.Outcome State Fault Refusal :=
  issue (.nop g count) s fun s => s.modMyCtx fun x => { x with nops := count.toNat }

/-- A context becomes one of the core's parked contexts, and the core holds none. -/
def Core.park (x : Core) (flagsAt : Nat) : Core :=
  { x with
    parked := x.parked ++ [⟨x.ctag, x.part, x.task, x.lin, x.phase0, x.sclk, x.ctx.scyc, x.ctx.srctr, x.failn, x.trace, x.yielded, x.yieldHeld, flagsAt, x.atEnd,
                            x.ctx.dmr, x.arrived, x.phaseEnd⟩]
    ctag := 0, saved := .no, yielded := none, yieldHeld := none, atEnd := false, arrived := none, phaseEnd := none, rollDue := false
    frozenYield := none, trace := Trace.off }

/-- A row operation that the handler has put into the list, numbered from `first` on, with what its issue would have found (R142, R147,
R154, R390). One whose AUX names no row of its range starts at the first: DESIGN CHOICE (notes/assumptions/92.md). -/
def Ctx.enterRow (x : Ctx) (first : Nat) (o : RowOp) : RowOp :=
  if o.id < first then o else
    let tags := rowTags x o.ins
    let range := rowRange o.ins
    { o with
      ty := tags.1, dty := tags.2, row := if range.1 ≤ o.row ∧ o.row < range.2 then o.row else range.1
      acc := match o.ins with
        | .vpfx .. => o.b
        | .visect .. => o.c
        | _ => 0
      grp := match o.ins with
        | .vqnt _ _ _ b fmt _ rf _ => x.grpAt fmt b rf
        | .vdq _ _ _ b _ fmt _ rf _ => x.grpAt fmt b rf
        | _ => 0 }

def Ctx.enterUnit (x : Ctx) (first : Nat) (u : RowUnit) : RowUnit := ⟨u.cur.map (x.enterRow first), u.queue.map (x.enterRow first)⟩

/-- The operations that the handler has put into the list, numbered from `first` on, enter their units: row operations with their lane
types, mx operations with their claims, and one the array holds with the rows it reads now (R194, R390). -/
def enterListed (s : State) (c first : Nat) : State :=
  let s := s.modCore c fun x =>
    let y := { x.ctx with va := x.ctx.enterUnit first x.ctx.va, sf := x.ctx.enterUnit first x.ctx.sf }
    { x with ctx := (((x.mx.map (·.op)).toList ++ x.mxq).filter fun o => decide (first ≤ o.id)).foldl
                      (fun y o => y.mxClaim o.id (mxClaims o.ins)) y }
  match (s.core c).mx with
  | none => s
  | some r =>
    if r.op.id < first then s
    else
      (mxBegin (s.modCore c fun x => { x with mx := none, mxq := r.op :: x.mxq }) c r.op).modCore c fun x =>
        { x with mx := x.mx.map fun q => { q with left := r.left } }

/-- The context the handler returns to runs again, what is due in cycle F lands, and a rollback that an error in S mode asked for
follows (R22, R390, R403). -/
def resume (s : State) (c : Nat) : State :=
  let t := settleLanded s (landAll (enterListed (returnFromTrap s c) c s.nextId) c) c
  if (s.core c).rollDue then rollback (t.modCore c fun x => { x with rollDue := false }) c else t

/-- ERET takes effect once no S-mode result is in flight and the trace unit has written what it buffered: the context resumes. While
a replay checkpoint is taken, contexts that were spilled for it wait (R416). A context whose save is complete gives up its core, a
failed step ends, one that yielded with a mask waits for a flag of it (R374), and a core frozen at step end is free again. -/
def eretEnd (s : State) (c : Nat) : State :=
  let x := s.core c
  let kept := (s.part x.part).pausing && (match x.saved with | .image _ => true | _ => false)
  if !x.ctx.flights.isEmpty || kept || !x.trace.idle then s
  else
    match x.saved with
    | .ready a => s.modCore c fun x => { (x.park a) with mode := .u, act := .free, eretReq := false }
    | _ =>
      if x.stepst.getLsbD 63 then resume (s.modCore c fun x => { x with yielded := none }) c
      else if x.yielded.isSome then s
      else
        let s := resume s c
        if x.atEnd then s.modCore c fun x => { x with act := .free, atEnd := false } else s

/-- In S mode ERET takes effect after its bundle: at once when the bundle holds nothing else. -/
def execEret (g : Guard) (s : State) : Host.Outcome State Fault Refusal :=
  issue (.eret g) s fun s =>
    let t := s.modMe fun x => { x with eretReq := true }
    if s.me.committing then t else eretEnd t s.cur

/-! ## Markers (R409) -/

def satDrift (i : Int) : Int := max (-(2 ^ 31)) (min (2 ^ 31 - 1) i)

/-- The drift of a MARK in U mode, its record, and whether interlock trace is armed. -/
def mark (rel : Bool) (exp : BitVec 26) (s : State) : State :=
  let x := s.me
  if x.mode = .s then s else
    let drift := satDrift ((x.sclk.toNat : Int) - (if rel then (x.trace.prev.toNat : Int) else 0) - exp.toNat)
    let armed := x.trace.thr != 0 && decide (x.trace.thr ≤ drift.natAbs)
    let s := traceEmit s s.cur 0 1 ((if rel then 1 else 0) + (if armed then 2 else 0)) x.ctx.seq.pc (wrap 32 drift) x.sclk.toNat
    s.modMe fun x => { x with trace := { x.trace with armed := armed, prev := x.sclk } }

def execMark (g : Guard) (rel : Bool) (exp : BitVec 26) (s : State) : Host.Outcome State Fault Refusal :=
  issue (.mark g rel exp) s (mark rel exp)

/-! ## Checkpoints (R401) -/

/-- CKPT ends a rerun's interval, or opens a checkpoint and gives its number. -/
def execCkpt (g : Guard) (e : Bool) (d : Port) (s : State) : Host.Outcome State Fault Refusal :=
  issue (.ckpt g e d) s fun s =>
    if !ckptActs s.me then s.result .sy 7 1 e d (s.me.ckn.setWidth 64) 0#8
    else
      let s := if s.me.rerunning then intervalEnd s s.cur none else s
      if s.me.rerunning || s.me.act == .retired then s
      else openCkpt (s.result .sy 7 1 e d ((s.me.ckn + 1).setWidth 64) 0#8) s.cur true

/-! ## Landing and refresh (R32, R115, R117, R147, R172) -/

def execResultLanding (c : Nat) (s : State) : Host.Outcome State Fault Refusal := event s fun s => settleLanded s (landDue s c .result) c
def execVectorRowLanding (c : Nat) (s : State) : Host.Outcome State Fault Refusal := event s fun s => landDue s c .row
def execPairNormLanding (c : Nat) (s : State) : Host.Outcome State Fault Refusal := event s fun s => landDue s c .norm
def execPairDirectionLanding (c : Nat) (s : State) : Host.Outcome State Fault Refusal := event s fun s => landDue s c .dir
def execEphemeralExpiry (c n : Nat) (s : State) : Host.Outcome State Fault Refusal := event s fun s => expire s c n
/-- va or sf reads the next row of the instruction it holds. -/
def execVectorRowStart (c : Nat) (sfu : Bool) (s : State) : Host.Outcome State Fault Refusal :=
  event s fun s => if (s.core c).mode = .u then s.modCtx c fun x => x.rowTick sfu else s

/-- A core has a group to issue: it runs, with no empty cycles owed, and has not reached END. -/
def Core.issues (x : Core) : Bool := x.act == .running && !x.ctx.seq.halt && !x.eretReq && x.ctx.nops == 0

/-- The refresh of a bank holds the next group for one clock. -/
def bankRefresh (s : State) (c : Nat) : State :=
  if (s.core c).issues && fetchVerdict s c == .hold 1 then holdGroup s c 1 (nextGroup s c).1 else s
/-- The held group's wait is over: it issues next. -/
def groupWaitEnd (s : State) (c : Nat) : State :=
  if (s.core c).issues && (s.core c).hold.isSome && fetchVerdict s c == .go then holdEnd s c else s

def execBankRefresh (c : Nat) (s : State) : Host.Outcome State Fault Refusal := event s fun s => bankRefresh s c
def execGroupWaitEnd (c : Nat) (s : State) : Host.Outcome State Fault Refusal := event s fun s => groupWaitEnd s c

/-! ## Freezing (R384 to R386, R412) -/

def execTrapEntry (c : Nat) (s : State) : Host.Outcome State Fault Refusal :=
  event s fun s => if (s.core c).act = .running then takeReport s c else s

/-- What a core in S mode raises: the cause due at the end of its cycle, or what its next group meets. -/
def raisedInS (s : State) (c : Nat) : Bool :=
  let x := s.core c
  x.mode == .s && (x.act == .running) &&
    (!x.due.isEmpty || (x.issues && (match fetchVerdict s c with | .trap _ => true | _ => false)))
def execDoubleTrap (c : Nat) (s : State) : Host.Outcome State Fault Refusal :=
  event s fun s => if raisedInS s c then stopCore s c .stopped 0x17F else s

/-- A breakpoint's words in the set-up block: SCYC, and V, ACT, PCM and PC. -/
def Trace.bks (t : Trace) (n : Nat) : Word := t.tsb.extractLsb' (if n = 0 then 128 else 256) 64
def Trace.bkc (t : Trace) (n : Nat) : BitVec 32 := t.tsb.extractLsb' (if n = 0 then 192 else 224) 32

/-- Breakpoint `n` fires at the group due to issue (R412). -/
def breakpointHit (x : Core) (n : Nat) : Bool :=
  let k := x.trace.bkc n
  x.mode == .u && x.issues && decide (n < 2) && k.getLsbD 0 && !x.trace.fired.getLsbD n && x.trace.bks n == x.ctx.scyc &&
    (!k.getLsbD 2 || bvField k 3 18 == x.ctx.seq.pc)

/-- A breakpoint stops the core at a report point, or samples. It fires at most once a step. -/
def breakpointFire (s : State) (c n : Nat) : State :=
  let x := s.core c
  if !breakpointHit x n then s else
    let s := s.modCore c fun x => { x with trace := { x.trace with fired := x.trace.fired ||| (1#2 <<< n) } }
    if (x.trace.bkc n).getLsbD 1 then traceEmit s c 4 4 n x.ctx.seq.pc 0 x.sclk.toNat
    else freeze s c ⟨0x173, 0, BitVec.ofNat 16 n, 0, 0, true, false⟩ false x.ctx.scyc

def execBreakpointFire (c n : Nat) (s : State) : Host.Outcome State Fault Refusal := event s fun s => breakpointFire s c n

/-! ## Pre-emption (R392, R393) -/

/-- Nothing of fixed latency is in flight, no row is queued, and no delay slot is due. -/
def Core.quiescent (x : Core) : Bool :=
  x.ctx.flights.isEmpty && x.ctx.va.ops.isEmpty && x.ctx.sf.ops.isEmpty && x.ctx.seq.pdly == 0 && x.ctx.seq.dsc == 0

/-- Both lanes have no micro-batch outstanding or pending (R344). -/
def Ctx.lanesClear (x : Ctx) : Bool := x.lo.out == 0 && x.lo.pend == 0 && x.hi.out == 0 && x.hi.pend == 0

/-- A pre-emption request may land now: an iteration boundary at which the core is quiescent and both lanes are clear (R102, R344,
R393), in a second rerun where the first ended (R403). A boundary whose bundle holds a NOP is reached once the NOP's empty cycles have
passed: DESIGN CHOICE (notes/assumptions/39.md). -/
def Core.landsNow (x : Core) : Bool :=
  x.mode == .u && x.act == .running && x.ctx.seq.boundary && x.ctx.nops == 0 && x.quiescent && x.ctx.lanesClear && x.endsHere

/-- The cause of a pre-emption (R392). -/
def preemption : Held := ⟨0x178, 0, 0, 0, 0, false, false⟩

/-- The cause of a YIELD that pre-empts (R374). -/
def yieldCause : Held := { preemption with cause := 0x179 }

/-- What lands on the core now: the scheduler's request, or a YIELD held until both lanes are clear, the lower code first (R344, R384,
R393). A YIELD whose lanes are not clear yields all the same and lands at the next landing point: DESIGN CHOICE
(notes/assumptions/115.md). -/
def Core.landingDue (x : Core) : Option Held :=
  if !x.landsNow then none else if x.preReq then some preemption else if x.yieldHeld.isSome then some yieldCause else none

/-- The pre-emption lands at the end of the last group's cycle. -/
def landPreemption (s : State) (c : Nat) (h : Held) : State :=
  freeze (s.modCore c fun x => { x.takeYield with preReq := x.preReq && h.cause != 0x178 }) c h true ((s.core c).ctx.scyc - 1)

/-- A landing at an edge at which a lower cause is due is held (R384). -/
def Core.holdLanding (x : Core) (h : Held) : Core := { x with preReq := x.preReq && h.cause != 0x178, held := joinHeld h x.held }

/-- The lowest cause held for a report point is below a code. -/
def Core.reportBelow (x : Core) (k : Nat) : Bool := (x.reportDue.map (·.cause)).any (· < k)

/-- A pre-emption that is due lands, or is held behind a lower cause that a report point takes first (R384). -/
def landOrHold (s : State) (c : Nat) (h : Held) : State :=
  if (s.core c).reportBelow h.cause then takeReport (s.modCore c fun x => x.holdLanding h) c else landPreemption s c h

/-- The request lands with cause 0x178 at the end of the last group's cycle. -/
def preempt (s : State) (c : Nat) : State :=
  let s := s.modCore c fun x => { x with preReq := true }
  if (s.core c).landsNow then landOrHold s c preemption else s

/-- At step end the core enters the handler for a context switch, or for a pre-emption or YIELD still held (R344, R392, R393). -/
def stepEndLanding (s : State) (c : Nat) : State :=
  let x := s.core c
  let held := x.preReq || x.yieldHeld.isSome
  let code := if x.preReq then 0x178 else if x.yieldHeld.isSome then 0x179 else 0x17A
  if !(held || x.swReq) then s else
    let s := s.modCore c fun x => { x.takeYield with preReq := false, swReq := held && x.swReq, act := .running, atEnd := true }
    takeTrap s c ⟨code, 0, 0, 0, 0, false, false⟩ true (x.ctx.scyc - 1)

/-- A context switch is requested: it is taken at the step's end; between steps, and on a core whose contexts are all saved, at
once. -/
def contextSwitch (s : State) (c : Nat) : State :=
  let s := s.modCore c fun x => { x with swReq := true }
  let x := s.core c
  if x.act = .free && (x.ctag != 0#16 || !x.parked.isEmpty) && x.mode == .u then stepEndLanding s c else s

def execPreemptionLanding (c : Nat) (s : State) : Host.Outcome State Fault Refusal :=
  event s fun s => if (s.core c).act = .running || (s.core c).act == .starting then preempt s c else s
def execContextSwitchDue (c : Nat) (s : State) : Host.Outcome State Fault Refusal := event s fun s => contextSwitch s c

/-! ## Trace pages (R414, R415) -/

/-- Where the next record goes: through the page list, then into its page. -/
def tracePage (s : State) (c : Nat) : Walk :=
  let x := s.core c
  xlate s c x.part (wrap 64 (bvField x.trace.tsb 0 64 + 8 * x.trace.page)) false

/-- The virtual address of the record on the page that the list's entry at `pa` names. -/
def traceVa (s : State) (x : Core) (pa : Nat) : Nat := wrap 64 (readNat s .pa pa 8 + 32 * x.trace.idx)

/-- Both translations use the core's engine. -/
def traceUse (s : State) (c pa : Nat) : State :=
  let x := s.core c
  (s.useRange c x.part (wrap 64 (bvField x.trace.tsb 0 64 + 8 * x.trace.page))).useRange c x.part (traceVa s x pa)

def tracePlace (s : State) (c : Nat) : Walk :=
  match tracePage s c with
  | .bad k => .bad k
  | .ok pa .. => xlate s c (s.core c).part (traceVa s (s.core c) pa) true

/-- The writer's page faults; in S mode the block's bytes 48 to 59 follow (R411, R415; notes/assumptions/98.md). -/
def traceLost (s : State) (c cause : Nat) : State :=
  let s := traceFault s c cause
  if (s.core c).mode = .s then writeBytes s (.core c) (saveArea + 0xFFF0) (s.core c).trace.back else s

/-- The writer writes the oldest record: the TFAULT record due first on a new page, then those buffered. -/
def traceWrite (s : State) (c : Nat) : State :=
  let x := s.core c
  let t := x.trace
  if t.idle then s else
    match tracePage s c, tracePlace s c with
    | .ok list .., .ok pa .. =>
      let s := writeNat (traceUse s c list) .pa pa 32 (t.fault.getD (t.buf.headD 0)).toNat
      s.modCore c fun x => { x with trace := { t.next with
        fault := none, bad := 0, buf := if t.fault.isSome then t.buf else t.buf.tail } }
    | .bad k, _ => traceLost s c k
    | _, .bad k => traceLost s c k

/-! ## Errors (R400) -/

/-- The step ends with a cause: what is in flight lands, nothing else goes on, and the core releases (R364, R400). In S mode, which
its ERET alone leaves, the step ends with that (R22). -/
def endStepWith (s : State) (c cause : Nat) : State :=
  let s := s.modCore c fun x => { (x.closeCkpt) with stepst := BitVec.ofNat 64 (2 ^ 63 + cause) }
  let x := s.core c
  let es := x.entries x.ctx.flights x.ctx.va x.ctx.sf
  if x.mode = .s then s else s.setCore c { (x.cutStep es es) with hold := none, committing := false, due := [] }

/-- Does an operation read data outside core scratchpad, for which an uncorrectable error fails its item (R400)? -/
def Op.readsOuter (o : Op) : Bool :=
  match o.ins with
  | .tld .. | .tldg .. | .tmv .. => Handle.lvl o.ha != 0
  | .cpy .. => (copySides o).1.lvl != 0
  | .cpyl .. | .ovl .. | .hqpop .. => true
  | _ => false

/-- Does it translate an address (R237)? -/
def Op.walks (o : Op) : Bool :=
  match o.ins with
  | .tld .. | .tldg .. | .tst .. | .tsts .. => Handle.lvl o.ha == 3
  | .cpy .. => (copySides o).1.lvl == 3 || (copySides o).2.lvl == 3
  | .cpyl .. | .ovl .. => true
  | _ => false

/-- The oldest transfer that ag has started, or command that the copy engine has, of a kind; not one that a rerun repeats without effect. -/
def oldestStarted (l : List Op) (f : Op → Bool) : Option Op := l.find? fun o => !isAtom o.ins && o.phase == .started && o.orig.isNone && f o

/-- An uncorrectable error lies at byte `ofs` of what an operation's next item reads, or of a table on the way to it: the item fails there,
with the bytes before it moved (R241, R243, R400). -/
def errAhead (s : State) (c ofs k : Nat) (o : Option Op) : State :=
  match o with
  | some o => s.modCore c fun x =>
      let mark := replaceOp { o with err := some (ofs, k) }
      { x with ag := mark x.ag, taken := mark x.taken, stash := mark x.stash }
  | none => s

/-- An uncorrectable error, by where it lies (R400); in a page table it is cause 0x0A5 of the access that walks it (R246). -/
def uncorrectable (s : State) (c : Nat) (loc : ErrLoc) : State :=
  let x := s.core c
  match loc with
  | .core =>
    if x.act != .running then s
    else if x.ckpt.isSome then rollback s c else endStepWith s c 0x174
  | .istore o =>
    if x.act != .running || x.ctx.seq.pc / 0x10000 != o then s else
      let s := s.modCore c fun x => { x with istag := vmod x.istag o IsTag.empty fun t => { t with st := 0 } }
      freeze s c ⟨0x176, 0, 0, BitVec.ofNat 64 x.ctx.seq.pc, 0, true, false⟩ false x.ctx.scyc
  | .shadow => s.modCore c Core.closeCkpt
  | .agItem ofs => errAhead s c ofs 0x177 (oldestStarted x.ag Op.readsOuter)
  | .ceItem ofs => errAhead s c ofs 0x177 (oldestStarted x.taken Op.readsOuter)
  | .agTable ofs => errAhead s c ofs 0x0A5 (oldestStarted x.ag Op.walks)
  | .ceTable ofs => errAhead s c ofs 0x0A5 (oldestStarted x.taken Op.walks)
  | .stashItem ofs => errAhead s c ofs 0x177 (oldestStash x true)
  | .stashTable ofs => errAhead s c (ofs / 256 * 256) 0x0A5 x.stash.head?
  | .atomTable =>
    match nextAtom x with
    | some o => if (atomForm o.ins).map (·.1) == some .hbm then atomFault s c o 0x0A5 else s
    | none => s
  | .traceTable => if x.trace.idle then s else traceLost s c 0x0A5
  | .cellarItem n r =>
    match (s.cellar n).reqs[r]? with
    | some o =>
      if o.phase = .performed then s else
        (failItem s o 0x177 0 0).modCellar n fun k => { k with reqs := replaceOp { o with phase := .performed, fails := 1 } k.reqs }
    | none => s
  | .saveTable | .saveItem | .entryItem .. | .entryTable .. | .arming _ | .armingTable _ => s

def execCorrectableError (c : Nat) (s : State) : Host.Outcome State Fault Refusal :=
  event s fun s => s.modCore c fun x => { x with cec := min 65535 (x.cec + 1) }

/-! ## Writes of system registers (R109, R137, R141, R227, R309, R364) -/

def execStepstWrite (c : Nat) (v : Word) (s : State) : Host.Outcome State Fault Refusal := event s fun s => sysWrite s c 28 v
def execAtagWrite (c : Nat) (v : Word) (s : State) : Host.Outcome State Fault Refusal := event s fun s => sysWrite s c 2 v
def execScycWrite (c : Nat) (v : Word) (s : State) : Host.Outcome State Fault Refusal := event s fun s => sysWrite s c 0 v
def execEphstWrite (c : Nat) (v : Word) (s : State) : Host.Outcome State Fault Refusal := event s fun s => sysWrite s c 1 v
def execSeqstWrite (c : Nat) (v : Word) (s : State) : Host.Outcome State Fault Refusal := event s fun s => sysWrite s c 16 v
def execLswinWrite (c : Nat) (v : Word) (s : State) : Host.Outcome State Fault Refusal := event s fun s => sysWrite s c 17 v
def execIstagWrite (c o : Nat) (v : Word) (s : State) : Host.Outcome State Fault Refusal := event s fun s => sysWrite s c (12 + o % 4) v
def execDsccmdWrite (c : Nat) (v : Word) (s : State) : Host.Outcome State Fault Refusal := event s fun s => sysWrite s c 4 v
def execReelwinWrite (c : Nat) (v : Word) (s : State) : Host.Outcome State Fault Refusal := event s fun s => sysWrite s c 23 v

/-- Mark `n` lines of a space from line `i` discarded; lines past its end are not marked (R226, R227). -/
def discardLines (sp : Space) (i : Nat) (s : State) : Nat → State
  | 0 => s
  | n + 1 =>
    if sp.size ≤ 64 * i then s
    else discardLines sp (i + 1) { s with discard := mput false (physAddr s sp (64 * i) / 64) true s.discard } n

/-- DSCCMD has set its last bit (R227). -/
def discardDone (s : State) (c : Nat) : State :=
  let w := (s.core c).dsc
  if !w.getLsbD 61 then s else
    (discardLines (levelSpace c (bvField w 62 2) 0xFF) (bvField w 0 21) s (bvField w 35 21)).modCore c fun x =>
      { x with dsc := x.dsc &&& ~~~0x2000000000000000#64 }

def execDiscardMarkDone (c : Nat) (s : State) : Host.Outcome State Fault Refusal := event s fun s => discardDone s c

/-! ## The trace writer's event -/

def execTraceRecordWrite (c : Nat) (s : State) : Host.Outcome State Fault Refusal := event s fun s => traceWrite s c

end Sys2Proof.Machine
end

