-- ==== Sys2Proof/Machine/SaveEngine.lean ====
section
/-! DEFINITION. Machine/SaveEngine.lean: the save engine (R394 to R398). -/

namespace Sys2Proof.Machine

/-! ## The spill region (R394, R395) -/

/-- The virtual address of a byte of the spill region. -/
def spillVa (x : Core) (o : Nat) : Nat := wrap 64 (x.ctxspill.toNat + o)

/-- The virtual addresses of the pages that spans of the region, each an offset and a length, lie on. -/
def spillPages (x : Core) (spans : List (Nat × Nat)) : List Nat :=
  spans.flatMap fun e => (upFrom (e.1 / 0x10000) ((e.1 + e.2 - 1) / 0x10000 - e.1 / 0x10000 + 1)).map fun pg => spillVa x (pg * 0x10000)

/-- The cause that keeps one of the pages from being read or written, if any. -/
def spillBad (s : State) (c : Nat) (wr : Bool) (pages : List Nat) : Option Nat :=
  pages.findSome? fun va => match xlate s c (s.core c).part va wr with
    | .bad k => some k
    | .ok .. => none

/-- The physical address of a byte of a region whose pages are mapped, `x` being core `c`. -/
def spillPa (s : State) (c : Nat) (x : Core) (o : Nat) : Nat :=
  match xlate s c x.part (spillVa x o) false with
  | .ok pa .. => pa
  | .bad _ => 0

/-- Write pieces of the region, each on one of its pages, and read them back, through the translation `pa` that the operation began with. -/
def spillPut (pa : Nat → Nat) (s : State) (o : Nat) (l : List Byte) : State := writeBytes s .pa (pa o) l
def spillPuts (pa : Nat → Nat) (s : State) (l : List (Nat × List Byte)) : State := l.foldl (fun s e => spillPut pa s e.1 e.2) s
def spillGet (pa : Nat → Nat) (s : State) (o n : Nat) : Nat := readNat s .pa (pa o) n

/-- An operation of the save engine ends, or fails with a cause and no change (R394). -/
def saveDone (s : State) (c : Nat) : State := s.modCore c fun x => { x with ctxBusy := none, ctxErr := none }
def saveFailed (s : State) (c k : Nat) : State := s.modCore c fun x => { x with ctxBusy := none, ctxErr := some k }

/-- Run an operation of the save engine on spans of the region, which it writes where `wr` says so, once it may start and their pages
are mapped: the core's copy engine translates them once (R242). No context comes back while a replay checkpoint is taken (R416), or
before the trace records of the one that runs are written (R414). -/
def saveRun (s : State) (c op : Nat) (ready wr : Bool) (spans : List (Nat × Nat))
    (f : (Nat → Nat) → State → State) : State :=
  let x := s.core c
  let back := (op == 3 || op == 6) && ((s.part x.part).pausing || !x.trace.idle)
  let pages := spillPages x spans
  if x.ctxBusy != some op || x.mode != .s || !ready || back then s
  else match spillBad s c wr pages with
    | some k => saveFailed s c k
    | none => saveDone (f (spillPa s c x) (pages.foldl (fun s va => s.useRange c x.part va) s)) c

/-! ## What a save waits for (R394) -/

/-- mx has retired everything and the rows of every MUNST have landed (R214, R215), tm's queue has been sent and every row instruction
is complete, ce's queue has been taken and POSTs sent, no ATOM or FENCE is pending, and the away table has room. An ATOM performed
while the core was frozen is pending no longer: its value is in the list (R262). -/
def Core.saveReady (x : Core) : Bool :=
  x.mxOps.isEmpty && (oldestStash x true).isNone && x.tm.isEmpty && x.rowRun.isNone && x.ce.isEmpty &&
    !(x.sy.any fun o => o.phase == .queued) && !(x.ag.any fun o => isAtom o.ins && (o.phase != .performed || o.smode)) &&
    x.fences.isEmpty && decide (x.away.length < 16)

/-- The context is away: its entry lasts while it has copies outstanding (R398). The address of its saved AFL is virtual, as all that the
engine reaches (R394). -/
def Core.addAway (x : Core) (addr : Nat) : Core :=
  if x.outst = 0 then x else { x with away := x.away ++ [⟨x.ctag, addr, x.outst, 0, []⟩] }

/-- A context comes back (R398): its entry is removed, and the lowest enabled flag delivered meanwhile becomes a held cause that names the
slots of its operations (R80). -/
def Core.endAway (x : Core) (t : BitVec 16) (afte : Word) : Core :=
  let mine := (x.away ++ x.delivered).filter fun e => e.ctag == t
  let mask := mine.foldl (fun m e => m ||| e.mask) 0#8
  let slots (i : Nat) : BitVec 8 := mine.foldl (fun m e => m ||| mget 0 i e.slots) 0#8
  { x with
    away := x.away.filter fun e => e.ctag != t, delivered := x.delivered.filter fun e => e.ctag != t
    outst := ((x.awayOf t).map (·.count)).getD 0
    held := match enabledFlag afte mask with
      | some i => joinHeld (Held.report (0x060 + i) (slots i) 0) x.held
      | none => x.held }

/-! ## SPILL and FILL (R395) -/

/-- A register's EPHST bit in the frame (R119). -/
def frameEph (s : State) (c r : Nat) (b : Bool) : State :=
  writeNat s (.core c) (saveArea + 0x2D8) 8 (setField (readNat s (.core c) (saveArea + 0x2D8) 8) r 1 (if b then 1 else 0))

/-- A result of the in-flight list lands in the frame, or in what the frame does not hold. A write ends the ephemeral state of its
register, an ephemeral copy is discarded, so that its register is expired, and bypass values are not kept (R117, R119, R392). -/
def foldWr (c : Nat) (f : Flight) (s : State) (w : Wr) : State :=
  match w with
  | .scalar r v => frameEph (writeNat s (.core c) (saveArea + 0x080 + 8 * r) 8 v.toNat) c r false
  | .eph r _ => frameEph s c r true
  | .pred r v => writeNat s (.core c) (saveArea + 0x2D0) 1 (setField (readNat s (.core c) (saveArea + 0x2D0) 1) r 1 (if v then 1 else 0) ||| 1)
  | .handle r v => writeNat s (.core c) (saveArea + 0x300 + 32 * r) 32 v.toNat
  | .byp .. | .load .. | .sysreg .. => s
  | w => landWr c f s w

/-- ATOMs performed while the core was frozen, whose values its list holds (R262). -/
def Core.heldAtoms (x : Core) : List Op := x.ag.filter fun o => isAtom o.ins && o.phase == .performed && !o.smode

/-- What entered the list of a frozen core lands before its context is saved (R262, R309). -/
def foldFrozen (s : State) (c : Nat) : State :=
  let x := s.core c
  let atom := fun (o : Op) => if o.mute then ([] : List Wr) else destWrs .ag (atomEph o.ins) (atomDest o.ins) o.val
  let fl := x.frozen ++ x.heldAtoms.map fun o => ⟨o.id, 0, .ag, 2, 0#8, atom o⟩
  let s := fl.foldl (fun s f => f.wrs.foldl (foldWr c f) s) s
  let s := s.modCore c fun x => { x with frozen := [], ag := x.ag.filter fun o => !(isAtom o.ins) }
  x.heldAtoms.foldl completeOp s

/-- The 16 words from 0x940. -/
def systemBlock (x : Ctx) : List Word :=
  [x.scyc, x.afl, x.afte, x.srseed, x.srctr, x.bhkey, x.spwcl, x.spwdi, x.cflog, x.dmr, x.shst, x.atag, x.pcfg,
    x.ksat.setWidth 64, x.drow, x.dcol]

def wordsBytes (l : List Word) : List Byte := l.flatMap fun w => leBytes w.toNat 8

/-- The register file part of the frame, from the save area; its list count is 0 (R388, R389). -/
def framePieces (s : State) (c : Nat) : List (Nat × List Byte) :=
  let g := fun o n => readBytes s (.core c) (saveArea + o) n
  [(0, g 0 22 ++ leBytes (leNat (g 22 2) / 2 ^ 14 * 2 ^ 14) 2 ++ g 24 (0x80 - 24)), (0x080, g 0x080 512), (0x2D0, g 0x2D0 8), (0x300, g 0x300 1024)]

/-- The rest of what SPILL writes. -/
def ctxPieces (x : Ctx) : List (Nat × List Byte) :=
  [(0x940, wordsBytes (systemBlock x)), (0x9C0, leBytes (packFile x.norms) 64),
   (0xA00, x.k.toList.flatMap fun f => leBytes f.toNat 4), (0xA80, x.tiles.toList.flatMap fun t => leBytes t.resid.toNat 8),
   (0x1000, leBytes (packFile x.dirs) 4096), (0x2000, x.bob.toList.flatMap Bobbin.image), (0x2800, leBytes (packFile x.reel) 8192)] ++
  (upFrom 0 8).flatMap fun t =>
    if (x.tile t).tag = .void then [] else (upFrom 0 64).map fun m => (0x4800 + 0x4000 * t + 256 * m, leBytes (x.row t m).toNat 256)

/-- SPILL writes the image; from then on the context's flags and increments go to where it was saved. -/
def spill (s : State) (c : Nat) : State :=
  let x := s.core c
  saveRun s c 1 x.saveReady true [(0, 0x24800)] fun pa s =>
    let s := foldFrozen s c
    let s := spillPuts pa s (framePieces s c ++ ctxPieces (s.core c).ctx)
    let eph := BitVec.ofNat 64 (readNat s (.core c) (saveArea + 0x2D8) 8)
    s.modCore c fun x =>
      { (x.addAway (spillVa x 0x948)) with
        saved := .image (spillVa x 0xA00), spillEph := mput 0 x.ctag.toNat eph x.spillEph, ckpt := none
        frozenVa := RowUnit.idle, frozenSf := RowUnit.idle, frozenNops := 0, frozenPops := 0, frozenYield := none }

/-- The lane fields of a saved SHST: permits not held are on their way back. -/
def laneOf (w : Word) (lo : Nat) : Lane :=
  let p := bvField w (lo + 12) 4
  let h := bvField w (lo + 8) 4
  ⟨p, h, bvField w (lo + 4) 4, bvField w lo 4, p - h, []⟩

/-- CFG and LOC without their reserved bits (R13, R187). -/
def bobCfgBits (w : Word) : Word := w &&& 0xFFFFFFFFFFF80000#64
def bobLocBits (w : Word) : Word := w &&& 0xFF000000001FFF00#64

/-- A bobbin of the image; what still claims its slots is known to the core (R395). -/
def bobbinOf (live : Bobbin) (l : List Byte) : Bobbin :=
  let g := bytesAt l
  let ptr := BitVec.ofNat 64 (g 16 8)
  { v := ptr.getLsbD 63, cfg := bobCfgBits (BitVec.ofNat 64 (g 0 8)), loc := bobLocBits (BitVec.ofNat 64 (g 8 8)), cnt := bvField ptr 16 9, tail := bvField ptr 8 8,
    sbo := BitVec.ofNat 21 (g 24 4), zbo := BitVec.ofNat 21 (g 28 4),
    slots := (upFrom 0 256).filterMap fun i =>
      match field (g (32 + i / 4) 1) (2 * (i % 4)) 2 with
      | 1 => some (i, SlotState.reserved) | 2 => some (i, .landed) | 3 => some (i, .failed) | _ => none
    claims := live.claims }

/-- The context state the image holds, reserved bits zero (R13); the handler's own registers stay. -/
def ctxOfImage (pa : Nat → Nat) (s : State) (x : Core) (same : Bool) : Ctx :=
  let w := fun i => BitVec.ofNat 64 (spillGet pa s (0x940 + 8 * i) 8)
  let y := x.ctx
  let tags := fun t => Tag.decode (bvField (w 11) (3 * t) 3)
  let tiles := (upFrom 0 8).foldl (fun v t => vset v t
    { Tile.void with
      tag := tags t, resid := BitVec.ofNat 64 (spillGet pa s (0xA80 + 8 * t) 8)
      rows := if tags t = .void then Tile.void.rows else
        (upFrom 0 64).foldl (fun v m => vset v m (BitVec.ofNat 2048 (spillGet pa s (0x4800 + 0x4000 * t + 256 * m) 256))) Tile.void.rows }) y.tiles
  { y with
    scyc := w 0, afl := aflBits (w 1), afte := afteBits (w 2), srseed := w 3, srctr := w 4, bhkey := w 5, spwcl := windowBits (w 6)
    spwdi := windowBits (w 7), cflog := cflogBits (w 8), dmr := dmrBits (w 9)
    lo := laneOf (w 10) 0, hi := laneOf (w 10) 16, pcfg := w 12, ksat := (w 13).setWidth 32, drow := w 14, dcol := w 15
    norms := unpackFile 32 16 (spillGet pa s 0x9C0 64) 0
    k := (upFrom 0 32).foldl (fun v f => vset v f (BitVec.ofNat 20 (spillGet pa s (0xA00 + 4 * f) 4))) y.k
    tiles := tiles, dirs := unpackFile 2048 16 (spillGet pa s 0x1000 4096) 0
    bob := (upFrom 0 16).foldl (fun v b => vset v b (bobbinOf (if same then y.bobbin b else Bobbin.unconfigured)
      (readBytes s .pa (pa (0x2000 + 128 * b)) 128))) y.bob
    reel := (unpackFile 16 4096 (spillGet pa s 0x2800 8192) 0).map reelBits }

/-- The context of tag `t` becomes the core's: the one it held is parked if it has been saved. -/
def Core.switchTo (x : Core) (t : BitVec 16) : Core :=
  if x.ctag = t then { x with saved := .no } else
    let x := match x.saved with
      | .ready a => x.park a
      | .image a => x.park a
      | .no => { x with yielded := none, yieldHeld := none, arrived := none, phaseEnd := none, rollDue := false }
    match x.parked.find? fun k => k.ctag == t with
    | some k =>
      { x with ctag := t, part := k.part, task := k.task, lin := k.lin, phase0 := k.phase0, sclk := k.sclk, failn := k.failn,
               trace := k.trace, yielded := k.yielded, yieldHeld := k.yieldHeld, atEnd := k.atEnd, arrived := k.arrived, phaseEnd := k.phaseEnd
               parked := x.parked.filter fun q => q.ctag != t }
    | none => { x with ctag := t }

/-- FILL restores the image and gives ERET its frame: bypass registers read 0 and what was ephemeral is expired (R119, R122). -/
def fill (s : State) (c : Nat) : State :=
  let x := s.core c
  saveRun s c 3 true false [(0, 0x24800)] fun pa s =>
    let t := BitVec.ofNat 16 (spillGet pa s 4 2)
    let frame := readBytes s .pa (pa 0) 0x1000
    let afte := afteBits (BitVec.ofNat 64 (spillGet pa s 0x950 8))
    let s := s.modCore c fun x => x.endAway t afte
    let y := ctxOfImage pa s (s.core c) (x.ctag == t)
    let s := s.modCore c fun x =>
      { (x.switchTo t) with ctx := y, frozen := [], frozenVa := RowUnit.idle, frozenSf := RowUnit.idle, frozenNops := 0, frozenPops := 0 }
    let s := writeBytes s (.core c) saveArea frame
    let s := writeFrame s c saveArea [(0x280, 80, 0), (0x2D8, 8, (mget 0 t.toNat x.spillEph).toNat), (0x700, 512, 0), (0x900, 64, 0)]
    if (s.core c).inten then
      (openCkpt s c false).modCore c fun z => { z with ckpt := z.ckpt.map fun k => { k with shadow := loadFrame s c y } }
    else s

/-! ## SPILLSP and FILLSP (R395, R396) -/

/-- Core-scratchpad lines below the save area. -/
def spLines : Nat := 0x1F0000 / 64
def spLine (s : State) (c i : Nat) : Nat := physAddr s (.core c) (64 * i) / 64

/-- Write lines from the `i`-th whose discard bit is 0. -/
def saveLines (pa : Nat → Nat) (c i : Nat) (s : State) : Nat → State
  | 0 => s
  | n + 1 =>
    let s := if mget false (spLine s c i) s.discard then s else spillPut pa s (0x30000 + 64 * i) (readBytes s (.core c) (64 * i) 64)
    saveLines pa c (i + 1) s n

/-- The line map. -/
def lineMap (s : State) (c : Nat) : Nat :=
  (upFrom 0 spLines).foldl (fun a i => if mget false (spLine s c i) s.discard then a else a + 2 ^ i) 0

/-- SPILLSP waits for the outstanding copies, then writes the live lines: the core may be given to another context. -/
def spillsp (s : State) (c : Nat) : State :=
  let x := s.core c
  saveRun s c 2 (x.outst == 0) true [(0x24800, 3968), (0x30000, 64 * spLines)] fun pa s =>
    let s := saveLines pa c 0 (spillPut pa s 0x24800 (leBytes (lineMap s c) 3968)) spLines
    s.modCore c fun x => { x with saved := match x.saved with
      | .image a => .ready a
      | r => r }

/-- Write back the lines of the map from the `i`-th. -/
def loadLines (pa : Nat → Nat) (c map i : Nat) (s : State) : Nat → State
  | 0 => s
  | n + 1 =>
    let s := if bitAt map i then writeBytes s (.core c) (64 * i) (readBytes s .pa (pa (0x30000 + 64 * i)) 64) else s
    loadLines pa c map (i + 1) s n

def fillsp (s : State) (c : Nat) : State :=
  saveRun s c 4 true false [(0x24800, 3968), (0x30000, 64 * spLines)] fun pa s =>
    loadLines pa c (spillGet pa s 0x24800 3968) 0 (discardLines (.core c) 0 s spLines) spLines

/-! ## SWOUT and SWIN (R397) -/

/-- The context-switch record but for CMDP, which the engine leaves alone. -/
def switchRecord (x : Core) : List Byte :=
  let y := x.ctx
  wordsBytes [y.afl, y.afte, y.srseed, y.bhkey, y.spwcl, y.spwdi, y.cflog, y.ksat.setWidth 64] ++
    (y.k.toList.flatMap fun f => leBytes f.toNat 4) ++ leBytes x.ctag.toNat 2 ++ rep 0#8 54

def swout (s : State) (c : Nat) : State :=
  let x := s.core c
  saveRun s c 5 x.saveReady true [(0xF00, 256)] fun pa s =>
    let s := foldFrozen s c
    let s := spillPut pa s 0xF08 (switchRecord (s.core c))
    s.modCore c fun x => { (x.addAway (spillVa x 0xF08)) with saved := .ready (spillVa x 0xF48), ckpt := none, frozenYield := none }

/-- The SRCTR that a context was frozen with (R81). -/
def Core.srctrOf (x : Core) (t : BitVec 16) : Word :=
  if x.ctag = t then x.ctx.srctr else ((x.parked.find? fun k => k.ctag == t).map (·.srctr)).getD 0

/-- SWIN restores the record of TAG, reserved bits zero, and the SRCTR that R81 saves and the record has no place for: the core keeps it
(notes/assumptions/116.md). Everything else is as at a context start (R13, R122, R397). The handler's registers stay. -/
def swin (s : State) (c : Nat) : State :=
  let x := s.core c
  saveRun s c 6 true false [(0xF00, 256)] fun pa s =>
    let t := x.ctxTag
    let w := fun i => BitVec.ofNat 64 (spillGet pa s (0xF08 + 8 * i) 8)
    let s := s.modCore c fun x => x.endAway t (afteBits (w 1))
    let w := fun i => BitVec.ofNat 64 (spillGet pa s (0xF08 + 8 * i) 8)
    let y := x.ctx
    s.modCore c fun x =>
      { (x.switchTo t) with
        atEnd := true, phase0 := 0, arrived := none, phaseEnd := none, frozen := [], frozenVa := RowUnit.idle, frozenSf := RowUnit.idle, frozenNops := 0, frozenPops := 0
        ctx := { Ctx.reset with
          s := y.s, eph := y.eph, p := y.p, h := y.h, byp := y.byp, seq := y.seq, flights := y.flights
          afl := aflBits (w 0), afte := afteBits (w 1), srseed := w 2, srctr := x.srctrOf t, bhkey := w 3, spwcl := windowBits (w 4)
          spwdi := windowBits (w 5), cflog := cflogBits (w 6), ksat := (w 7).setWidth 32
          k := (upFrom 0 32).foldl (fun v f => vset v f (BitVec.ofNat 20 (spillGet pa s (0xF48 + 4 * f) 4))) y.k } }

def execSpill (c : Nat) (s : State) : Host.Outcome State Fault Refusal := event s fun s => spill s c
def execSpillsp (c : Nat) (s : State) : Host.Outcome State Fault Refusal := event s fun s => spillsp s c
def execFill (c : Nat) (s : State) : Host.Outcome State Fault Refusal := event s fun s => fill s c
def execFillsp (c : Nat) (s : State) : Host.Outcome State Fault Refusal := event s fun s => fillsp s c
def execSwout (c : Nat) (s : State) : Host.Outcome State Fault Refusal := event s fun s => swout s c
def execSwin (c : Nat) (s : State) : Host.Outcome State Fault Refusal := event s fun s => swin s c

end Sys2Proof.Machine
end

