-- ==== Sys2Proof/Machine/Sched.lean ====
section
/-! DEFINITION. Machine/Sched.lean: operator blocks, task control blocks, the ready queue and placement, the tile walker,
release and retirement (R112, R344, R351 to R366). -/

namespace Sys2Proof.Machine

/-! ## Operator blocks (R351, R352, R361) -/

/-- `n` bytes of an operator block from byte `o`. -/
def opbF (b : BitVec 2048) (o n : Nat) : Nat := bvField b (8 * o) (8 * n)
def opbImg (b : BitVec 2048) : Nat := opbF b 0 4
def opbEntry (b : BitVec 2048) : Nat := bvField b 32 18
def opbOvlen (b : BitVec 2048) : Nat := opbF b 16 2
def opbSlot (b : BitVec 2048) : Nat := bvField b 152 2
def opbRows (b : BitVec 2048) : Nat := bvField b 160 3 + 1
def opbCols (b : BitVec 2048) : Nat := bvField b 168 3 + 1
def opbDmin (b : BitVec 2048) : Nat := opbF b 22 1
def opbDmax (b : BitVec 2048) : Nat := opbF b 23 1
def opbTs (b : BitVec 2048) : Nat := opbF b 24 6
def opbPol (b : BitVec 2048) : Bool := b.getLsbD 240
def opbDepc (b : BitVec 2048) : Nat := opbF b 32 2
def opbCllen (b : BitVec 2048) : Nat := bvField b 288 12
def opbDilen (b : BitVec 2048) : Nat := bvField b 304 12
/-- The listed successors. -/
def opbSucc (b : BitVec 2048) : List Nat := (upFrom 0 (min 16 (opbF b 34 1))).map fun i => opbF b (64 + 2 * i) 2

/-- A level of the nest: its word, and its fields. -/
def opbLevel (b : BitVec 2048) (l : Nat) : Nat := opbF b (40 + 4 * l) 4
def lvUsed (w : Nat) : Bool := bitAt w 24
def lvBnd (w : Nat) : Bool := bitAt w 23
def lvOrd (w : Nat) : Nat := field w 20 3
def lvTrips (w : Nat) : Nat := field w 0 20
def opbUsed (b : BitVec 2048) : List Nat := (upFrom 0 6).filter fun l => lvUsed (opbLevel b l)

def product (l : List Nat) : Nat := l.foldl (· * ·) 1
/-- The step count: the product of the used levels' trip counts. -/
def opbSteps (b : BitVec 2048) : Nat := product ((opbUsed b).map fun l => lvTrips (opbLevel b l))
/-- How many steps one iteration of level `l` takes. -/
def opbStride (b : BitVec 2048) (l : Nat) : Nat :=
  product (((opbUsed b).filter fun m => decide (lvOrd (opbLevel b l) < lvOrd (opbLevel b m))).map fun m => lvTrips (opbLevel b m))
/-- A step's index at level `l`; 0 at an unused level. -/
def opbIndex (b : BitVec 2048) (lin l : Nat) : Nat :=
  let w := opbLevel b l
  if lvUsed w then lin / opbStride b l % lvTrips w else 0

/-- Is the step of this linear index a boundary step (R365)? -/
def opbBoundary (b : BitVec 2048) (lin : Nat) : Bool :=
  lin == 0 || (opbUsed b).any fun l => lvBnd (opbLevel b l) && (opbUsed b).all fun m =>
    decide (lvOrd (opbLevel b m) ≤ lvOrd (opbLevel b l)) || opbIndex b lin m == 0

/-- Granules a partition holds on a die. -/
def Part.granules (p : Part) (d : Nat) : Nat := ((upFrom 0 64).filter fun g => p.hasGranule d g).length
/-- Does a partition hold a cluster of a die? -/
def Part.hasDie (p : Part) (d : Nat) : Bool := (upFrom (8 * d) 8).any p.hasCluster

/-- Reserved bits of an operator block are zero. -/
def opbReserved (b : BitVec 2048) : Bool :=
  [(50, 14), (154, 6), (163, 5), (171, 5), (241, 7), (248, 8), (280, 8), (300, 4), (316, 4), (768, 1280)].all
      (fun f => bvField b f.1 f.2 == 0) &&
    (upFrom 0 6).all (fun l => let w := opbLevel b l; field w 25 7 == 0 && (lvUsed w || w == 0)) &&
    (upFrom 0 16).all fun i => decide (i < opbF b 34 1) || opbF b (64 + 2 * i) 2 == 0

/-- R353. -/
def opbMalformed (p : Part) (b : BitVec 2048) : Bool :=
  let e := opbEntry b
  let u := opbUsed b
  !opbReserved b || opbImg b == 0 || e / 0x10000 != opbSlot b || decide (opbOvlen b ≤ e / 64 % 1024) || e % 64 != 0 ||
    opbOvlen b == 0 || decide (1024 < opbOvlen b) || opbF b 8 8 % 64 != 0 ||
    opbDmin b == 0 || decide (4 < opbDmax b) || decide (opbDmax b < opbDmin b) ||
    !((upFrom 0 u.length).all fun o => u.any fun l => lvOrd (opbLevel b l) == o) ||
    decide (2 ^ 40 < opbSteps b) || decide (16 < opbF b 34 1) || (opbSucc b).any (fun h => decide (p.opbcnt ≤ h)) ||
    decide (256 < opbCllen b) || (upFrom 0 4).all fun d => !p.hasDie d || decide (32 * p.granules d < opbDilen b)

/-! ## Armings (R353 to R355, R366, R367) -/

/-- The scheduler changes no TCB while a TCB event's record waits (R434) or decrements of a finished task are due (R356). -/
def Part.blocked (p : Part) : Bool := !p.walk.isEmpty || p.ring.any RingRec.isTcbEvent

/-- A TCB event: OUT 2, the handle and the cause (R434). -/
def tcbEvent (s : State) (p h cause : Nat) : State := ringAppend s p (h + 2 * 2 ^ 48 + cause * 2 ^ 64) none

/-- The oldest posting leaves the intake. -/
def intakePop (s : State) (p : Nat) : State := s.modPart p fun x => { x with intake := x.intake.tail }

/-- The oldest posting fails: a failed item of its OPBPOST, or a TCB event (R353, R367). It is an arming of the log all the same (R417). -/
def armFail (s : State) (p cause : Nat) : State :=
  match (s.part p).intake with
  | [] => s
  | a :: _ =>
    let s := logNote (intakePop s p) p (.arming a.handle)
    match a.op with
    | some o => failOp s o cause 0 0
    | none => tcbEvent s p a.handle cause

/-- The oldest posting has been performed. -/
def armDone (s : State) (p : Nat) (a : Arming) : State :=
  let s := logNote (intakePop s p) p (.arming a.handle)
  match a.op with
  | some o => completeOp s o
  | none => s

/-- The operator block of a handle, or the translation cause of R246. -/
def readOpb (s : State) (p h : Nat) : Except Nat (BitVec 2048) :=
  match translate s p (wrap 64 ((s.part p).opbbase + 256 * h)) false with
  | .bad k => .error k
  | .ok pa .. => .ok (BitVec.ofNat 2048 (readNat s .pa pa 256))

def Tcb.busy (t : Tcb) : Bool := t.state == .waiting || t.state == .ready || t.state == .running

/-- .arm: the operator block is read and checked, and the TCB becomes waiting or ready. -/
def performArm (s : State) (p : Nat) (a : Arming) : State :=
  match readOpb s p a.handle with
  | .error k => armFail s p k
  | .ok b =>
    if opbMalformed (s.part p) b then armFail s p 0x16C
    else if (s.tcb p a.handle).busy then armFail s p 0x16D
    else
      let n := a.cnt.getD (opbDepc b)
      armDone (s.modTcb p a.handle fun _ => { Tcb.zero with state := if n = 0 then .ready else .waiting, depc := n, opb := b }) p a

/-- Lower a waiting TCB's count; it becomes ready at 0. -/
def Tcb.lower (t : Tcb) (n : Nat) : Tcb := { t with depc := t.depc - n, state := if t.depc ≤ n then .ready else t.state }

/-- .dec -/
def performDec (s : State) (p : Nat) (a : Arming) : State :=
  let t := s.tcb p a.handle
  let n := a.cnt.getD 0
  if t.state = .waiting ∧ n ≤ t.depc then armDone (s.modTcb p a.handle fun t => t.lower n) p a
  else armFail s p 0x16D

/-- The scheduler performs the oldest posting of the intake. What a rerun repeats has been performed already (R404). -/
def armingPerform (s : State) (p : Nat) : State :=
  match (s.part p).intake with
  | [] => s
  | a :: _ =>
    if !(s.part p).set || (s.part p).blocked then s
    else
      match a.op.filter fun o => o.orig.isSome with
      | some o =>
        match settled s o with
        | some o => endOp (intakePop s p) o
        | none => s
      | none =>
        if !logTurn s p (.arming a.handle) then s
        else if a.dec then performDec s p a else performArm s p a

/-! ## Placement (R358, R359) -/

/-- Queue order: TS, then handle. -/
def Part.before (p : Part) (g h : Nat) : Bool :=
  let a := opbTs (p.tcb g).opb
  let b := opbTs (p.tcb h).opb
  decide (a < b) || (a == b && decide (g < h))

/-- Tasks that wait for a placement; a nest of no steps needs none. -/
def Part.ready (p : Part) : List Nat := (p.tcbs.filter fun e => e.2.state == .ready && opbSteps e.2.opb != 0).map (·.1)

/-- The cores of a rectangle, row by row. -/
def rectCores (b : BitVec 2048) (r : Rect) : List Nat :=
  (upFrom 0 (opbRows b)).flatMap fun y => (upFrom 0 (opbCols b)).map fun x => 64 * r.die + 8 * (r.row + y) + (r.col + x)

/-- A core is free: it runs nothing, and no task holds it but through contexts that are saved (R359, R396). -/
def coreAvail (s : State) (p c : Nat) : Bool :=
  let x := s.core c
  (s.part p).hasCluster (clusterOf c) &&
    ((x.act == .free && x.mode == .u && x.ctag == 0#16) ||
      (x.act == .running && x.mode == .s && (match x.saved with | .ready _ => true | _ => false)))

/-- Running tasks of a partition, with a test of their rectangles. -/
def Part.holders (p : Part) (f : BitVec 2048 → Rect → Bool) : List (BitVec 2048) :=
  (p.tcbs.filter fun e => e.2.state == .running && e.2.rects.any (f e.2.opb)).map (·.2.opb)

def sum (l : List Nat) : Nat := l.foldl (· + ·) 0

/-- The windows a block asks for can be granted on a rectangle: every cluster and the die have that much left (R222, R224). -/
def windowsFit (p : Part) (b : BitVec 2048) (r : Rect) : Bool :=
  (distinctNat ((rectCores b r).map clusterOf)).all (fun k =>
    decide (sum ((p.holders fun o q => (rectCores o q).any fun c => clusterOf c == k).map opbCllen) + opbCllen b ≤ 256)) &&
  decide (sum ((p.holders fun _ q => q.die == r.die).map opbDilen) + opbDilen b ≤ 32 * p.granules r.die)
where
  distinctNat : List Nat → List Nat
    | [] => []
    | x :: r => if r.contains x then distinctNat r else x :: distinctNat r

/-- A block's rectangle fits with its origin here, on free cores. -/
def rectFits (s : State) (p : Nat) (b : BitVec 2048) (r : Rect) : Bool :=
  decide (r.die < 4) && decide (r.row + opbRows b ≤ 8) && decide (r.col + opbCols b ≤ 8) && (rectCores b r).all (coreAvail s p) &&
    windowsFit (s.part p) b r

/-- Does a block fit anywhere on a die? -/
def dieFits (s : State) (p : Nat) (b : BitVec 2048) (d : Nat) : Bool :=
  (upFrom 0 8).any fun y => (upFrom 0 8).any fun x => rectFits s p b ⟨d, y, x⟩

/-- Can a ready task be placed? -/
def placeable (s : State) (p h : Nat) : Bool :=
  let b := (s.tcb p h).opb
  decide (opbDmin b ≤ ((upFrom 0 4).filter (dieFits s p b)).length)

/-- Some ready task before `h` in queue order cannot be placed (R365, R374). -/
def unplacedBefore (s : State) (p h : Nat) : Bool :=
  (s.part p).ready.any fun g => (s.part p).before g h && !placeable s p g

/-- Dies in rising order, none twice. -/
def risingDies : List Rect → Bool
  | a :: b :: r => decide (a.die < b.die) && risingDies (b :: r)
  | _ => true

/-- Context tags in use: of contexts running or saved, and of those owed increments or records (R359). -/
def tagsInUse (s : State) : List Nat :=
  s.net.map (·.ctag.toNat) ++ s.notices.map (·.op.ctag.toNat) ++
    (s.parts.toList.flatMap fun p => p.ring.map fun r => bvField r.bits 16 16) ++ s.cores.toList.flatMap fun x =>
      x.ctag.toNat :: x.parked.map (·.ctag.toNat) ++ (x.away ++ x.delivered).map (·.ctag.toNat) ++ x.pib.map (·.ctag.toNat)

/-- `n` unused tags, smallest first. -/
def freshTags (s : State) (n : Nat) : List Nat :=
  let used := (tagsInUse s).filter (· != 0)
  ((upFrom 1 (used.length + n)).filter fun t => !used.contains t).take n

/-- A context starts on a core, or waits there for the handler that has saved another (R143, R171, R196, R268, R300, R301). -/
def startContext (p h : Nat) (s : State) (e : Nat × Nat) : State :=
  let (c, t) := e
  s.modCore c fun x =>
    let tag := BitVec.ofNat 16 t
    let x := { x with spillEph := mput 0 t 0 x.spillEph }
    if x.act = .free then
      { x with ctx := Ctx.reset, ctag := tag, part := p, task := h, lin := 0, phase0 := 0, saved := .no, yielded := none, atEnd := false,
               outst := 0, failn := 0, held := x.held.filter (·.notice), arrived := none, phaseEnd := none, frozenYield := none, yieldHeld := none
               rollDue := false, trace := Trace.off }
    else { x with parked := x.parked ++ [⟨tag, p, h, 0, 0, 0, 0, 0, 0, Trace.off, none, none, 0, true, 0, none, none⟩] }

/-- A ready task is placed on rectangles that fit, one on each of DMIN to DMAX dies; the tasks before it in the queue, none of
which can be placed, are passed over (R358). -/
def taskPlace (s : State) (p h : Nat) (rects : List Rect) : State :=
  let x := s.part p
  let t := x.tcb h
  let earlier := x.ready.filter fun g => x.before g h
  let ok := x.set && !x.tear && !x.blocked && !x.pausing && x.ready.contains h && risingDies rects &&
    decide (opbDmin t.opb ≤ rects.length) && decide (rects.length ≤ opbDmax t.opb) && rects.all (rectFits s p t.opb) &&
    earlier.all (fun g => !placeable s p g && decide ((x.tcb g).pass < 16)) && logTurn s p (.place h rects)
  if !ok then s else
    let cores := rects.flatMap (rectCores t.opb)
    let s := earlier.foldl (fun s g => s.modTcb p g fun t => { t with pass := min 255 (t.pass + 1) }) s
    let s := (cores.zip (freshTags s cores.length)).foldl (startContext p h) s
    let s := s.modTcb p h fun t => { t with state := .running, rects := rects, ndie := rects.length, phases := [], remote := [] }
    logNote s p (.place h rects)

/-- Contexts of a task end on cores it gives up; what was still owed to them is owed no more. -/
def endContexts (p h : Nat) (s : State) (cores : List Nat) : State :=
  cores.foldl (fun s c => s.modCore c fun x =>
    let here := x.act == .free && x.part == p && x.task == h
    let mine := fun (k : Parked) => k.part == p && k.task == h
    { x with ctag := if here then 0 else x.ctag
             delivered := x.delivered.filter fun e => !((here && e.ctag == x.ctag) || x.parked.any fun k => mine k && e.ctag == k.ctag)
             parked := x.parked.filter fun k => !mine k }) s

/-- A task's cores. -/
def Tcb.cores (t : Tcb) : List Nat := t.rects.flatMap (rectCores t.opb)

/-! ## The tile walker (R361, R362, R371) -/

/-- A step's DMR on a core of a rectangle (R371). -/
def stepDmr (r : Rect) (c : Nat) : Word :=
  let i := c % 64
  BitVec.ofNat 64 ((64 * r.die + 8 * r.row + r.col) * 2 ^ 48 + (i / 8 - r.row) * 2 ^ 45 + (i % 8 - r.col) * 2 ^ 42 + 0xF * 2 ^ 38
    + r.die * 2 ^ 30 + clusterOf c * 2 ^ 25)

/-- The core's state before a step's first group (R75, R114, R121, R122, R364, R408). -/
def Core.initStep (x : Core) (t : Tcb) (c lin : Nat) : Core :=
  let b := t.opb
  let dmr := ((t.rects.find? fun r => (rectCores b r).contains c).map fun r => stepDmr r c).getD 0
  { x with
    lin := lin, sclk := 0, failn := 0, stepst := 0, hold := none, due := [], atEnd := false, arrived := none, phaseEnd := none
    yielding := none, frozenYield := none, yieldHeld := none, eretReq := false, rollDue := false, trace := Trace.off
    ctx := { x.ctx with
      seq := { Seq.zero with pc := opbEntry b }, scyc := 0, flights := [], va := RowUnit.idle, sf := RowUnit.idle, nops := 0
      s := (upFrom 0 6).foldl (fun v l => vset v l (BitVec.ofNat 64 (opbIndex b lin l))) (Vector.replicate 64 0)
      eph := Vector.replicate 64 none, p := 1, byp := Vector.replicate 10 0, srctr := BitVec.ofNat 64 (lin * 2 ^ 16), dmr := dmr
      h := (upFrom 0 32).foldl (fun v i => vset v i (Config.imageHandle (BitVec.ofNat 32 (opbImg b)) i)) (Vector.replicate 32 0) } }

/-- Does the block's slot hold its image, overlay number and length resident (R109)? -/
def entryResident (x : Core) (b : BitVec 2048) : Bool :=
  vget x.istag (opbSlot b) IsTag.empty == ⟨BitVec.ofNat 32 (opbImg b), BitVec.ofNat 11 (opbOvlen b), BitVec.ofNat 8 (opbF b 18 1), 2⟩

/-- The operation that loads the entry overlay; `bad` is an uncorrectable error ahead of it (R110, R362, R400). -/
def entryLoad (s : State) (c lin : Nat) (b : BitVec 2048) (bad : Option (Nat × Nat)) : Op :=
  let x := s.core c
  { id := s.nextId, ins := .ovl Guard.always .z .z .z false (BitVec.ofNat 8 (opbF b 18 1)) (BitVec.ofNat 2 (opbSlot b)), core := c,
    part := x.part, ctag := x.ctag, pc := Config.walkerPc lin, scyc := BitVec.ofNat 64 (Config.walkerScyc lin), cflog := x.ctx.cflog,
    smode := false, spwcl := x.ctx.spwcl, spwdi := x.ctx.spwdi, a := BitVec.ofNat 64 (opbF b 8 8), b := BitVec.ofNat 64 (opbOvlen b),
    c := 0, f := BitVec.ofNat 64 (opbImg b), ha := 0, hb := 0, hc := 0, slot := 0, phase := .started, idx := 0, val := 0, data := [],
    fails := 0, afl := 0, orig := none, mute := false, tag := .void, dead := false, err := bad }

/-- Load the entry overlay if its slot does not hold it: the step may start, or it fails with the cause of the load and
releases without issuing a group (R362). -/
def loadEntry (s : State) (c lin : Nat) (b : BitVec 2048) (bad : Option (Nat × Nat)) : State :=
  let start := fun (s : State) => s.modCore c fun x => { x with act := .starting }
  if entryResident (s.core c) b then start s
  else
    let o := entryLoad s c lin b bad
    let tag := fun (s : State) (t : IsTag) => s.modCore c fun x => { x with istag := vset x.istag (opbSlot b) t }
    let s := { tag s { vget (s.core c).istag (opbSlot b) IsTag.empty with st := 1 } with nextId := s.nextId + 1 }
    let m := loadStore o (opbSlot b * 0x10000) 0 s (64 * opbOvlen b)
    match m.fail with
    | none => start (tag m.st ⟨BitVec.ofNat 32 (opbImg b), BitVec.ofNat 11 (opbOvlen b), BitVec.ofNat 8 (opbF b 18 1), 2⟩)
    | some (k, ofs) =>
      (failItem m.st o k ofs 0).modCore c fun x =>
        { x with act := .running, stepst := BitVec.ofNat 64 (2 ^ 63 + k), ctx := { x.ctx with seq := { x.ctx.seq with halt := true } } }

/-- The step a walker hands a core next: one to be dispatched again, the lowest first, or NEXT (R362, R399). -/
def Tcb.nextStep (t : Tcb) (c : Nat) : Option Nat :=
  let again := (t.redo.filter fun e => e.2 != some c).map (·.1)
  match again with
  | l :: r => some (r.foldl min l)
  | [] => if t.next < opbSteps t.opb then some t.next else none

/-- Note the dispatch of a step in its TCB. -/
def Tcb.dispatch (t : Tcb) (lin : Nat) : Tcb :=
  let t := { t with live := t.live ++ [lin] }
  if t.redo.any fun e => e.1 == lin then { t with redo := t.redo.filter fun e => e.1 != lin } else { t with next := t.next + 1 }

/-- The highest die of some rectangles. -/
def lastDie (l : List Rect) : Nat := l.foldl (fun a r => max a r.die) 0

/-- The next step of a running task is a boundary step, and every earlier one has retired (R365). -/
def atBoundary (s : State) (p h : Nat) : Bool :=
  let q := s.part p
  let t := q.tcb h
  q.set && !q.blocked && !q.pausing && t.state == .running && t.fails == 0 && t.live.isEmpty && t.redo.isEmpty &&
    decide (t.next < opbSteps t.opb) && opbBoundary t.opb t.next

/-- What is left of a task's rectangles without its highest-numbered die. -/
def Tcb.without (t : Tcb) : List Rect := t.rects.filter fun r => r.die != lastDie t.rects

/-- The highest-numbered die is to be withdrawn: a ready task before this one cannot be placed, and NDIE is above DMIN (R365). -/
def withdrawDue (s : State) (p h : Nat) : Bool :=
  let t := s.tcb p h
  atBoundary s p h && decide (opbDmin t.opb < t.ndie) && unplacedBefore s p h && logTurn s p (.place h t.without)

/-- The cores that a withdrawal gives up. -/
def Tcb.lastCores (t : Tcb) : List Nat := (t.rects.filter fun r => r.die == lastDie t.rects).flatMap (rectCores t.opb)

/-- The highest-numbered die is withdrawn, once its cores are free. -/
def withdraw (s : State) (p h : Nat) : State :=
  let t := s.tcb p h
  if !withdrawDue s p h || t.lastCores.any (fun c => (s.core c).act != .free) then s else
    logNote ((endContexts p h s t.lastCores).modTcb p h fun t => { t with rects := t.without, ndie := t.ndie - 1 }) p (.place h t.without)

/-- The walker hands the next step of a task to a free core of its rectangles; none once a step has failed (R357, R362). Before a
boundary step dies are withdrawn while one is to be (R365). `bad` is an uncorrectable error that the entry overlay's load meets, its byte
offset and cause (R241, R400). -/
def stepDispatchWith (bad : Option (Nat × Nat)) (s : State) (p h c : Nat) : State :=
  let s := withdraw (withdraw (withdraw s p h) p h) p h
  let q := s.part p
  let t := q.tcb h
  let x := s.core c
  let idle := x.act == .free && x.mode == .u && x.ctag != 0#16 && x.part == p && x.task == h && t.cores.contains c && !x.swReq
  match t.nextStep c with
  | none => s
  | some lin =>
    if !q.set || t.state != .running || t.fails != 0 || !idle || withdrawDue s p h || q.blocked || q.pausing || !logTurn s p (.dispatch h lin c) then s
    else
      let s := logNote (s.modTcb p h fun t => t.dispatch lin) p (.dispatch h lin c)
      loadEntry (s.modCore c fun x => x.initStep t c lin) c lin t.opb bad

def stepDispatch (s : State) (p h c : Nat) : State := stepDispatchWith none s p h c

/-- The step starts: the trace unit reads its block, a STEP record is written, and a checkpoint opens (R362, R401, R411, R413). -/
def stepStart (s : State) (c : Nat) : State :=
  let x := s.core c
  if x.act != .starting || !entryResident x (s.tcb x.part x.task).opb then s else
    let tsb := BitVec.ofNat 512 (readNat s (.core c) 0x1FFFC0 64)
    let s := s.modCore c fun x => { x with act := .running, trace := x.trace.load tsb }
    let s := traceEmit s c 3 6 0 x.ctx.seq.pc 0 x.lin
    if x.inten then openCkpt s c false else s

/-! ## Successors (R356, R357) -/

/-- Decrement the successors still due, in list order, until a TCB event's record waits. -/
def runWalk (s : State) (p : Nat) : Nat → State
  | 0 => s
  | n + 1 =>
    match (s.part p).walk with
    | [] => s
    | h :: r =>
      if (s.part p).ring.any RingRec.isTcbEvent then s else
        let s := s.modPart p fun x => { x with walk := r }
        let s := if (s.tcb p h).state = .waiting then s.modTcb p h fun t => t.lower 1 else tcbEvent s p h 0x16D
        runWalk s p n

/-- A task gives up its rectangles. -/
def endTask (s : State) (p h : Nat) (st : TState) : State :=
  let t := s.tcb p h
  (endContexts p h s t.cores).modTcb p h fun t => { t with state := st, rects := [], ndie := 0, live := [], redo := [], phases := [], remote := [] }

/-- Every step of a task has retired, none failed, or it has none: it is done, and its successors are decremented. -/
def taskDone (s : State) (p h : Nat) : State :=
  let q := s.part p
  let t := q.tcb h
  let n := opbSteps t.opb
  let fin := (t.state == .running && t.live.isEmpty && t.redo.isEmpty && t.fails == 0 && t.next == n) || (t.state == .ready && n == 0)
  if !q.set || q.blocked || !fin then s else
    let succ := opbSucc t.opb
    runWalk ((endTask s p h .done).modPart p fun x => { x with walk := succ }) p succ.length

/-- The listed successors of a failed task that are waiting or ready fail with cause 0x16E, and apply their own policy. -/
def failSucc (p : Nat) : Nat → State → Nat → State
  | 0, s, _ => s
  | n + 1, s, h =>
    if opbPol (s.tcb p h).opb then s else
      (opbSucc (s.tcb p h).opb).foldl (fun s k =>
        let t := s.tcb p k
        if t.state = .waiting ∨ t.state = .ready then
          failSucc p n (s.modTcb p k fun t => { t with state := .failed, cause := 0x16E }) k
        else s) s

/-- A step has failed and every dispatched step has retired: the task fails and its policy applies. -/
def taskFailed (s : State) (p h : Nat) : State :=
  let q := s.part p
  let t := q.tcb h
  if !q.set || q.blocked || t.state != .running || t.fails == 0 || !t.live.isEmpty then s
  else failSucc p (q.tcbs.length + 1) (endTask s p h .failed) h

/-! ## Die count (R365) -/

/-- Before a boundary step, with every earlier step retired, a die is added, or the highest-numbered one withdrawn. -/
def dieCountChange (s : State) (p h : Nat) (rect : Rect) : State :=
  let q := s.part p
  let t := q.tcb h
  let b := t.opb
  if !atBoundary s p h then s
  else if t.rects.contains rect then (if rect.die = lastDie t.rects then withdraw s p h else s)
  else
    let more := t.rects ++ [rect]
    let can := decide (t.ndie < opbDmax b) && !q.tear && (t.rects.all fun r => r.die != rect.die) && rectFits s p b rect &&
      logTurn s p (.place h more)
    if !can then s else
      let cores := rectCores b rect
      let s := (cores.zip (freshTags s cores.length)).foldl (startContext p h) s
      logNote (s.modTcb p h fun t => { t with rects := more, ndie := t.ndie + 1 }) p (.place h more)

/-! ## Release (R112, R344, R363, R434) -/

/-- The oldest waiting record is appended once there is room; what waited for it goes on. -/
def ringAdvance (s : State) (p : Nat) : State :=
  match (s.part p).ring with
  | [] => s
  | r :: _ =>
    let n := (s.part p).ring.length
    let s := ringStep s p
    if (s.part p).ring.length = n then s else
      let s := match r.core with
        | some c => if (s.core c).act = .free then stepEndLanding s c else s
        | none => s
      runWalk s p (s.part p).walk.length

/-- Everything the core had issued has landed or ended, and the trace records are written. -/
def Core.drained (x : Core) : Bool :=
  x.act == .running && x.mode == .u && x.ctx.seq.halt && x.ctx.nops == 0 && x.ctx.flights.isEmpty && x.ctx.va.ops.isEmpty &&
    x.ctx.sf.ops.isEmpty && x.mxOps.isEmpty && x.ag.isEmpty && x.ce.isEmpty && x.taken.isEmpty && x.tm.isEmpty && x.rowRun.isNone &&
    x.sy.isEmpty && x.fences.isEmpty && x.stash.isEmpty && x.recv.isEmpty && x.outst == 0 && x.ctx.lo.pend == 0 &&
    x.ctx.hi.pend == 0 && x.yielded.isNone && x.due.isEmpty && x.reportDue.isNone &&
    x.trace.idle

/-- Micro-batches whose results nothing took are discarded: a failure record each, and the permit granted again (R344). -/
def discardBatches (s : State) (c : Nat) : State :=
  let mine := s.cellars.toList.flatMap fun k => k.batches.filter fun b => b.op.core == c
  let s := mine.foldl (fun s b => recordFailure s b.op 13 0x146 0 0) s
  let drop := fun (k : Cellar) => { k with batches := k.batches.filter fun b => b.op.core != c }
  let s := { s with cellars := s.cellars.map drop }
  let give := fun (l : Lane) => { l with out := 0, grants := l.grants + l.out, sizes := [] }
  s.modCtx c fun x => { x with lo := give x.lo, hi := give x.hi }

/-- The sequencer as release leaves it. -/
def Seq.released (q : Seq) : Seq := { Seq.zero with pc := q.pc, sel := q.sel, ptgt := q.ptgt }

/-- The drained core releases: its step completion record goes to the ring, and with it appended the core is free, or enters
the handler for a landing held until step end (R392, R393). -/
def coreRelease (s : State) (c : Nat) : State :=
  if !(s.core c).drained then s else
    let s := if (s.core c).rerunning then intervalEnd s c none else s
    if (s.core c).rerunning || (s.core c).act != .running then s else
      let s := discardBatches s c
      let x := s.core c
      let out := if x.stepst.getLsbD 63 then 1 else 0
      let rec' := stepRecord x c out (if out = 1 then bvField x.stepst 0 9 else 0)
      let s := s.modCore c fun x =>
        { (x.closeCkpt) with act := .recording, dbgReq := none, hold := none, arrived := none, phaseEnd := none, ctx := { x.ctx with seq := x.ctx.seq.released } }
      let s := ringAppend (settleDomains s) x.part rec' (some c)
      if (s.core c).act = .free then stepEndLanding s c else s

/-! ## Events -/

/-- An error in the operator block that the oldest posting reads, or in a page table on the way to it (R246, R353, R400). -/
def armError (s : State) (p k : Nat) : State :=
  match (s.part p).intake with
  | a :: _ => if !(s.part p).set || (s.part p).blocked || a.dec || (a.op.any fun o => o.orig.isSome) then s else armFail s p k
  | [] => s

/-- An uncorrectable error, in a core's state, an operation's data, a spill region, an entry overlay, or an operator block being read (R353,
R362, R400). -/
def errorAt (s : State) (c : Nat) (loc : ErrLoc) : State :=
  match loc with
  | .arming p => armError s p 0x177
  | .armingTable p => armError s p 0x0A5
  | .saveTable => if (s.core c).ctxBusy.isSome then saveFailed s c 0x0A5 else s
  | .saveItem => if [3, 4, 6].any fun k => (s.core c).ctxBusy == some k then saveFailed s c 0x177 else s
  | .entryItem p h ofs => stepDispatchWith (some (ofs, 0x177)) s p h c
  | .entryTable p h ofs => stepDispatchWith (some (ofs, 0x0A5)) s p h c
  | loc => uncorrectable s c loc

def execUncorrectableError (c : Nat) (loc : ErrLoc) (s : State) : Host.Outcome State Fault Refusal := event s fun s => errorAt s c loc
def execArmingPerform (p : Nat) (s : State) : Host.Outcome State Fault Refusal := event s fun s => armingPerform s p
def execTaskPlace (p h : Nat) (rects : List Rect) (s : State) : Host.Outcome State Fault Refusal := event s fun s => taskPlace s p h rects
def execStepDispatch (p h c : Nat) (s : State) : Host.Outcome State Fault Refusal := event s fun s => stepDispatch s p h c
def execStepStart (c : Nat) (s : State) : Host.Outcome State Fault Refusal := event s fun s => stepStart s c
def execTaskDone (p h : Nat) (s : State) : Host.Outcome State Fault Refusal := event s fun s => taskDone s p h
def execTaskFailed (p h : Nat) (s : State) : Host.Outcome State Fault Refusal := event s fun s => taskFailed s p h
def execDieCountChange (p h : Nat) (rect : Rect) (s : State) : Host.Outcome State Fault Refusal := event s fun s => dieCountChange s p h rect
def execCoreRelease (c : Nat) (s : State) : Host.Outcome State Fault Refusal := event s fun s => coreRelease s c
def execStepRingAppend (p : Nat) (s : State) : Host.Outcome State Fault Refusal := event s fun s => ringAdvance s p

end Sys2Proof.Machine
end

