-- ==== Sys2Proof/Machine/HostLink.lean ====
section
/-! DEFINITION. Machine/HostLink.lean: the host's registers, command queues and commands, partition set-up and teardown,
attestation, BAR windows, start, thermal limits and replay (R244, R416 to R436). -/

namespace Sys2Proof.Machine

/-! ## Queue registers (R422) -/

def HostQ.base (q : HostQ) : Nat := q.qcfg.toNat / 4096 * 4096
def HostQ.cplBase (q : HostQ) : Nat := q.qcpl.toNat / 4096 * 4096
def HostQ.en (q : HostQ) : Bool := q.qcfg.getLsbD 5
def HostQ.vec (q : HostQ) : Nat := bvField q.qcfg 0 5
/-- Entries of the ring. -/
def HostQ.size (q : HostQ) : Nat := 2 ^ (bvField q.qcfg 8 4 + 4)

/-- A host write of QCFG or QCPL. Setting EN restarts the count. -/
def qcfgWrite (s : State) (q : Nat) (cpl : Bool) (v : Word) : State :=
  s.modQueue q fun x =>
    if cpl then { x with qcpl := v &&& 0xFFFFFFFFFFFFF000#64 }
    else
      let w := bvSet (v &&& 0xFFFFFFFFFFFFFF3F#64) 8 4 (min 11 (bvField v 8 4))
      if w.getLsbD 5 && !x.en then { x with qcfg := w, head := 0, tail := 0, stale := false, rung := false, tries := 0 }
      else { x with qcfg := w }

/-- A doorbell write sets the tail and notifies the fetcher; a halted queue goes on. With relaxed ordering the fetch may find
the entry's bytes of before (R426): what host memory holds when the fetch reads it is the host's. -/
def doorbell (s : State) (q : Nat) (v : Nat) : State :=
  s.modQueue q fun x => { x with tail := BitVec.ofNat 32 v, rung := true, stale := false }

/-! ## Command entries (R423, R424) -/

/-- `n` bytes of an entry from byte `o`. -/
def entF (e : BitVec 512) (o n : Nat) : Nat := bvField e (8 * o) (8 * n)

/-- CRC-32C over bytes 0 to 3 and 8 to 63. -/
def entryCrc (e : BitVec 512) : Nat :=
  let l := leBytes e.toNat 64
  crcOf 32 0x82F63B78 (l.take 4 ++ l.drop 8)

/-- A host command with its arguments. -/
inductive Command where
  | arm (h cnt : Nat) (usec : Bool)
  | dec (h amt : Nat)
  | inval (p va len : Nat)
  | dbgstop (c : Nat)
  | attest (nonce report : Nat)
  | psetup (p desc : Nat)
  | ptear (p : Nat)
deriving DecidableEq, Repr

/-- The command an entry holds, none where it is malformed. -/
def commandOf (e : BitVec 512) : Option Command :=
  let zero := fun o => entF e o (64 - o) == 0
  let part := entF e 16 1
  let a := entF e 24 8
  let b := entF e 32 8
  if entF e 9 7 ≠ 0 then none
  else match entF e 8 1 with
  | 0x01 => if zero 21 && decide (entF e 20 1 < 2) then some (.arm (entF e 16 2) (entF e 18 2) (bitAt (entF e 20 1) 0)) else none
  | 0x02 => if zero 20 && entF e 18 2 != 0 then some (.dec (entF e 16 2) (entF e 18 2)) else none
  | 0x03 => if zero 40 && entF e 17 7 == 0 && decide (part < 8) && b != 0 then some (.inval part a b) else none
  | 0x04 => if zero 18 && decide (entF e 16 2 < 256) then some (.dbgstop (entF e 16 2)) else none
  | 0x05 => if zero 40 && entF e 16 8 == 0 && a % 32 == 0 && b % 64 == 0 then some (.attest a b) else none
  | 0x10 => if zero 32 && entF e 17 7 == 0 && decide (part < 8) && a % 64 == 0 then some (.psetup part a) else none
  | 0x11 => if zero 17 && decide (part < 8) then some (.ptear part) else none
  | _ => none

/-- May the queue give commands of this code? In recovery only queue 0's ATTEST is served (R423, R428). -/
def permitted (s : State) (q op : Nat) : Bool :=
  (!s.status.recov || op == 5) &&
  match op with
  | 0x01 | 0x02 => q != 0
  | 0x04 | 0x10 | 0x11 => q == 0
  | _ => true

/-- The completion record of the entry at count position `n`; its vector is signalled (R425). -/
def complete (s : State) (q n : Nat) (e : BitVec 512) (status cause : Nat) : State :=
  let x := s.queue q
  let bits := entF e 0 4 + entF e 8 1 * 2 ^ 32 + status * 2 ^ 40 + cause * 2 ^ 48
  let s := writeNat s .pa (hostPa (x.cplBase + 32 * (n % x.size))) 32 bits
  (s.modQueue q fun x => { x with cur := none, asked := false }).signal x.vec

/-- The command being performed completes. -/
def commandEnd (s : State) (q status cause : Nat) : State :=
  match (s.queue q).cur with
  | some e => complete s q (entF e 0 4) e status cause
  | none => s

/-- Perform a command where it is the one the queue has taken. -/
def command (q : Nat) (i : Command) (s : State) (f : State → State) : State :=
  match (s.queue q).cur with
  | some e => if commandOf e = some i then f s else s
  | none => s

/-! ## The fetcher (R426) -/

/-- Does the fetcher serve the queue: firmware runs, or the module is in recovery and the queue is 0 (R420, R428)? -/
def served (s : State) (q : Nat) : Bool :=
  (s.status.run || (s.status.recov && q == 0)) && (s.queue q).en && (s.queue q).rung && !(s.queue q).stale && (s.queue q).cur.isNone

/-- Read the entry at HEAD: perform it, read it again later, or after the eighth re-read report it stale and halt. -/
def fetchTry (s : State) (q : Nat) : State :=
  let x := s.queue q
  let e := BitVec.ofNat 512 (readNat s .pa (hostPa (x.base + 64 * (x.head.toNat % x.size))) 64)
  if entF e 0 4 = x.head.toNat ∧ entF e 4 4 = entryCrc e then
    let s := s.modQueue q fun x => { x with head := x.head + 1, tries := 0, cur := some e }
    if !permitted s q (entF e 8 1) then
      commandEnd s q (if [1, 2, 3, 4, 5, 0x10, 0x11].contains (entF e 8 1) then 3 else 2) 0
    else if (commandOf e).isNone then commandEnd s q 2 0
    else s
  else if x.tries < 8 then s.modQueue q fun x => { x with tries := x.tries + 1 }
  else
    (complete s q x.head.toNat e 1 0).modQueue q fun x => { x with tries := 0, stale := true, rung := false }

/-- The first read of the next entry. -/
def commandFetch (s : State) (q : Nat) : State :=
  let x := s.queue q
  if !served s q || x.tries != 0 || x.head == x.tail then s else fetchTry s q
/-- A re-read. -/
def commandFetchRetry (s : State) (q : Nat) : State :=
  if !served s q || (s.queue q).tries == 0 then s else fetchTry s q

/-! ## ARM, DEC, INVAL, DBGSTOP (R244, R412, R424) -/

/-- A posting for the queue's own partition enters its intake, which it waits for room in (R366). -/
def postArming (s : State) (q : Nat) (a : Arming) : State :=
  let p := queuePart s q
  if p ≥ 8 then commandEnd s q 3 0
  else if (s.part p).opbcnt ≤ a.handle then commandEnd s q 4 0x169
  else if 256 ≤ (s.part p).intake.length then s
  else commandEnd (s.modPart p fun x => { x with intake := x.intake ++ [a] }) q 0 0

/-- May a queue name partition `p`: queue 0, or the partition's own (R423)? -/
def ownQueue (s : State) (q p : Nat) : Bool := q == 0 || queuePart s q == p

/-- The trace page a core's writer is on overlaps a range of virtual addresses (R415). -/
def tracePageIn (s : State) (c va len : Nat) : Bool :=
  let x := s.core c
  x.trace.on && decide (x.trace.bad < x.trace.npg) &&
    match tracePage s c with
    | .bad _ => false
    | .ok pa .. => let v := readNat s .pa pa 8; decide (v < va + len) && decide (va < v + 0x10000)

/-- Translations of a range are dropped; trace writers on it leave their page. -/
def inval (s : State) (q p va len : Nat) : State :=
  if (s.queue q).asked then s
  else if !ownQueue s q p then commandEnd s q 3 0
  else
    let s := (s.modQueue q fun x => { x with asked := true }).modPart p fun x => { x with inval := x.inval ++ [(q, va, len)] }
    (upFrom 0 256).foldl (fun s c =>
      let x := s.core c
      if x.part = p ∧ x.act ≠ .free ∧ tracePageIn s c va len then traceLost s c Config.traceInvalCause else s) s

/-- The oldest invalidate completes: every cached range that overlaps its own is dropped. An access of the model and its translation are
one event, so that none that has translated is left (R244). -/
def invalComplete (s : State) (p : Nat) : State :=
  match (s.part p).inval with
  | [] => s
  | (q, va, n) :: r => commandEnd ((s.dropRanges p va n).modPart p fun x => { x with inval := r }) q 0 0

/-- The core freezes with cause 0x173 at its next report point; the command completes when it has, or at once where the core
runs no context. -/
def dbgstop (s : State) (q c : Nat) : State :=
  let x := s.core c
  if !(x.act == .running || x.act == .starting) then commandEnd s q 0 0
  else if (s.queue q).asked then (if x.dbgReq.isNone then commandEnd s q 0 0 else s)
  else
    ((s.modQueue q fun x => { x with asked := true }).modCore c fun x => { x with dbgReq := some q }).hold c
      ⟨0x173, 0, 2, 0, 0, true, false⟩

/-! ## ATTEST (R430, R431) -/

/-- The boot journal as bytes. -/
def journalBytes (l : List JournalRec) : List Byte :=
  l.flatMap fun r => leBytes r.stage 1 ++ leBytes r.unit 1 ++ leBytes r.variant 1 ++ leBytes r.outcome 1 ++ rep 0#8 28

/-- Bytes 0 to 255 of the report; a digest's bytes stand in its own order (notes/assumptions/74.md). -/
def reportHead (s : State) (q : Nat) (nonce : List Byte) : List Byte :=
  let p := queuePart s q
  let mpart := if q = 0 then rep 0#8 48 else digestBytes (sha384 (leBytes (s.part p).desc.toNat 1024))
  leBytes 1 2 ++ leBytes (if q = 0 then 0xFF else p) 1 ++ [0#8] ++ leBytes Config.securityVersion.toNat 2 ++ rep 0#8 2 ++ nonce ++
    digestBytes (sha384 Config.bootRom) ++ digestBytes (sha384 Config.firmware) ++ digestBytes (sha384 (journalBytes s.journal)) ++ mpart ++ leBytes Config.moduleId.toNat 16 ++ rep 0#8 8

/-- The report is written; for queues 1 to 15 nonce and report lie in the partition's host window. -/
def attest (s : State) (q nonce report : Nat) : State :=
  let x := s.part (queuePart s q)
  let within := fun a n => decide (x.hwbase ≤ a) && decide (a + n ≤ x.hwlimit)
  if q ≠ 0 ∧ ¬ (queuePart s q < 8 ∧ within nonce 32 ∧ within report 30432) then commandEnd s q 3 0
  else
    let head := reportHead s q (readBytes s .pa (hostPa nonce) 32)
    let l := head ++ leBytes (Config.rsaSign head).toNat 384 ++ leBytes (Config.slhSign head).toNat 29792
    commandEnd (writeBytes s .pa (hostPa report) l) q 0 0

/-! ## PSETUP (R432, R433) -/

/-- A BAR4 window entry of a descriptor. -/
def barV (d : BitVec 8192) (i : Nat) : Bool := d.getLsbD (8 * (640 + 16 * i))
def barLvl (d : BitVec 8192) (i : Nat) : Nat := bvField d (8 * (640 + 16 * i) + 1) 2
def barLoc (d : BitVec 8192) (i : Nat) : Nat := bvField d (8 * (641 + 16 * i)) 8
def barBase (d : BitVec 8192) (i : Nat) : Nat := bvField d (8 * (648 + 16 * i)) 64

def descF (d : BitVec 8192) (o n : Nat) : Nat := bvField d (8 * o) (8 * n)
def descClus (d : BitVec 8192) : Nat := descF d 8 4
def descGran (d : BitVec 8192) (k : Nat) : Nat := descF d (16 + 8 * k) 8
def descCell (d : BitVec 8192) (n : Nat) : Nat := descF d (192 + 8 * n) 8
def cellFirst (w : Nat) : Nat := field w 0 12
def cellCount (w : Nat) : Nat := field w 16 13

/-- A descriptor's reserved fields are zero, its addresses aligned and its values in range. -/
def descOk (p : Nat) (d : BitVec 8192) : Bool :=
  let f := descF d
  f 0 1 == p && f 1 7 == 0 && f 12 4 % 2 == 0 && f 14 2 == 0 &&
    (upFrom 0 4).all (fun k => descGran d k == 0 || field (descClus d) (8 * k) 8 != 0) &&
    f 112 8 % 4096 == 0 && f 120 8 % 4096 == 0 && decide (f 112 8 ≤ f 120 8) && f 136 8 % 4096 == 0 && decide (f 136 8 < 2 ^ 52) && f 144 8 % 65536 == 0 &&
    f 152 4 != 0 && decide (f 152 4 ≤ 65536) && f 156 4 == 0 && f 160 8 % 4096 == 0 && decide (6 ≤ f 168 1) && decide (f 168 1 ≤ 20) &&
    decide (f 169 1 < 32) && decide (f 170 2 ≤ 1000) && f 172 4 == 0 &&
    (upFrom 0 8).all (fun n =>
      let w := descCell d n
      field w 12 4 == 0 && field w 29 35 == 0 && decide (cellFirst w + cellCount w ≤ 4096)) &&
    (upFrom 0 16).all (fun i =>
      let o := 256 + 16 * i
      decide (f o 2 < 576) && decide (f (o + 2) 1 < 4) && decide (f (o + 3) 1 < 2) && decide (f (o + 4) 2 < 256) && f (o + 6) 10 == 0) &&
    (upFrom 0 8).all (fun i =>
      let o := 640 + 16 * i
      decide (f o 1 < 8) && f (o + 2) 6 == 0 && barBase d i % 65536 == 0 &&
        (!barV d i || (match barLvl d i with
          | 1 => decide (barLoc d i < 32) && decide (barBase d i < 0x1000000)
          | 2 => decide (barLoc d i < 4) && decide (barBase d i < 0x8000000)
          | 3 => barLoc d i == 0 && decide (barBase d i < 2 ^ 39) && d.getLsbD (8 * 48 + barBase d i / 2 ^ 30)
          | _ => false))) &&
    f 768 256 == 0

/-- Two ranges of a cellar's slots share one. -/
def cellMeet (a b : Nat) : Bool :=
  cellCount a != 0 && cellCount b != 0 && decide (cellFirst a < cellFirst b + cellCount b) && decide (cellFirst b < cellFirst a + cellCount a)

/-- Two step completion rings share a byte of host memory. -/
def ringsMeet (a b : BitVec 8192) : Bool :=
  decide (descF a 160 8 < descF b 160 8 + 32 * 2 ^ descF b 168 1) && decide (descF b 160 8 < descF a 160 8 + 32 * 2 ^ descF a 168 1)

/-- Two descriptors claim one resource. -/
def descMeet (a b : BitVec 8192) : Bool :=
  let both := fun o n => descF a o n &&& descF b o n != 0
  both 8 4 || both 12 4 || both 16 32 || both 48 64 || both 512 128 ||
    (descF a 112 8 != descF a 120 8 && descF b 112 8 != descF b 120 8 && decide (descF a 112 8 < descF b 120 8) &&
      decide (descF b 112 8 < descF a 120 8)) ||
    ringsMeet a b || (upFrom 0 8).any (fun n => cellMeet (descCell a n) (descCell b n)) || (upFrom 0 8).any fun i => barV a i && barV b i

/-- A descriptor names a stack, cellar unit or Weave link that is unavailable (R428). -/
def descUnavailable (st : Status) (d : BitVec 8192) : Bool :=
  (upFrom 0 8).any (fun n => st.hbmu.getLsbD n && (descF d (48 + 8 * n) 8 != 0 || cellCount (descCell d n) != 0)) ||
    (upFrom 0 16).any fun l => st.wvu.getLsbD l && descF d (512 + 8 * l) 8 != 0

/-- The descriptor is read and checked, and its resources are assigned. -/
def psetup (s : State) (q p desc : Nat) : State :=
  let d := BitVec.ofNat 8192 (readNat s .pa (hostPa desc) 1024)
  if !descOk p d then commandEnd s q 2 0
  else if (s.part p).set || descUnavailable s.status d || (upFrom 0 8).any (fun k => (s.part k).set && descMeet (s.part k).desc d) then
    commandEnd s q 4 0x16F
  else commandEnd (s.modPart p fun _ => { Part.empty with set := true, desc := d }) q 0 0

/-! ## PTEAR (R435) -/

/-- Does a partition own the byte at a global address? -/
def Part.owns (p : Part) (a : Nat) : Bool :=
  if a < 2 ^ 52 then decide (a < 2 ^ 39) && p.hasChannel (a / 2 ^ 30)
  else if a < 2 ^ 53 then p.hasCluster (clusterOf ((a - 2 ^ 52) / 0x200000))
  else if a < 2 ^ 54 then p.hasCluster ((a - 2 ^ 53) / 0x1000000)
  else if a < 2 ^ 55 then p.hasGranule ((a - 2 ^ 54) / 0x8000000) ((a - 2 ^ 54) % 0x8000000 / 0x200000)
  else false

/-- Does a partition's granule hold the ring of a die's hatch queue? -/
def Part.ownsHatch (p : Part) (d : Nat) (h : Hatch) : Bool := p.hasGranule d (bvField h.cfg 6 21 * 64 / 0x200000)
/-- Does a cellar's sequence slot belong to a partition (R315)? -/
def Part.ownsSlot (p : Part) (n i : Nat) : Bool :=
  let w := p.d (192 + 8 * n) 8
  p.set && decide (cellFirst w ≤ i) && decide (i < cellFirst w + cellCount w)

/-- Keep what a test of die number and queue admits. -/
def keepHatch (s : State) (f : Nat → Hatch → Bool) : State :=
  (upFrom 0 12).foldl (fun s d => s.modDie d fun x => { x with hatch := x.hatch.filter fun e => f d e.2 }) s
def keepLens (s : State) (f : Nat → Nat → Bool) : State :=
  (upFrom 0 8).foldl (fun s n => s.modCellar n fun k => { k with lens := k.lens.filter fun e => f n e.1 }) s

/-- Does a core of the partition still hold a context with a step, or a saved one? -/
def contextsLeft (s : State) (p : Nat) : Bool :=
  ((s.part p).tcbs.any fun e => e.2.state == .running) || !(s.part p).ring.isEmpty || (s.part p).intake.any (·.op.isSome) ||
    (upFrom 0 256).any fun c =>
      let x := s.core c
      (x.part == p && (x.act == .starting || x.act == .running || x.act == .recording)) || x.parked.any fun k => k.part == p

/-- Invalidates of a partition that is torn down complete: its translations are gone (R244, R435). -/
def endInvals (s : State) (p : Nat) : State :=
  (s.part p).inval.foldl (fun s e => commandEnd s e.1 0 0) { s with xlat := s.xlat.map fun l => l.filter fun r => r.part != p }

/-- Once every context has ended, everything the partition held is cleared and free. -/
def ptear (s : State) (q p : Nat) : State :=
  let x := s.part p
  if !x.set then commandEnd s q 0 0
  else if contextsLeft s p then s.modPart p fun x => { x with tear := true }
  else
    let s := { s with
      mem := s.mem.filter fun e => !x.owns e.1
      discard := s.discard.filter fun e => !x.owns (e.1 * 64)
      dirty := s.dirty.filter fun e => !x.owns (e.1 * 65536) }
    let s := keepLens (keepHatch s fun d h => !x.ownsHatch d h) fun n i => !x.ownsSlot n i
    commandEnd ((endInvals s p).modPart p fun _ => Part.empty) q 0 0

/-! ## The completion ring and BAR4 (R419, R421, R433, R434) -/

/-- The host's consumed count, which does not pass SCRPROD. -/
def scrconsWrite (s : State) (p : Nat) (v : Word) : State :=
  s.modPart p fun x => if x.set && serialLe (v.setWidth 32) x.scrprod then { x with scrcons := v.setWidth 32 } else x

/-- The byte behind an offset of BAR4, if a window maps it and its partition holds it. -/
def bar4Place (s : State) (off : Nat) : Option (Space × Nat) :=
  let i := off / 2 ^ 33
  match (upFrom 0 8).find? fun p => (s.part p).set && barV (s.part p).desc i with
  | none => none
  | some p =>
    let x := s.part p
    let a := barBase x.desc i + off % 2 ^ 33
    let loc := barLoc x.desc i
    if i ≥ 8 then none else
      match barLvl x.desc i with
      | 1 => if holds s p (.cluster loc) a then some (.cluster loc, a) else none
      | 2 => if holds s p (.die loc) a then some (.die loc, a) else none
      | 3 => if a < 2 ^ 39 ∧ x.hasChannel (a / 2 ^ 30) then some (.pa, a) else none
      | _ => none

/-- What a BAR4 read of a byte returns: all ones outside a window. -/
def bar4Read (s : State) (off : Nat) : Byte :=
  match bar4Place s off with
  | some (sp, a) => readByte s sp a
  | none => 0xFF#8

/-- The clock that a BAR4 access carries lets it be applied at its place (R254, R255). -/
def barLets (s : State) (b : BarAcc) : Bool :=
  match (bar4Place s b.off).bind fun e => e.1.home e.2 with
  | some j => j == 0 || clockAllows s b.clock 0 j
  | none => true

/-- A BAR4 access is applied: a write changes its byte, a read returns `bar4Read` and changes nothing. -/
def barApply (s : State) (b : BarAcc) : State :=
  match b.wr, bar4Place s b.off with
  | some v, some (sp, a) => writeByte s sp a v
  | _, _ => s

/-- The first BAR4 accesses on their way that may be applied are, in PCIe's order (R255). -/
def barDrain (s : State) : Nat → State
  | 0 => s
  | n + 1 =>
    match s.bar with
    | [] => s
    | b :: r => if barLets s b then barDrain (barApply { s with bar := r } b) n else s

/-- A BAR4 access of a byte, a read or a write, enters through die 0 with its clock, behind those before it, and is applied once that lets
it (R254, R255). -/
def bar4Access (s : State) (off : Nat) (wr : Option Byte) : State :=
  barDrain { s with bar := s.bar ++ [⟨off, wr, (s.die 0).vc⟩] } (s.bar.length + 1)

/-! ## BAR0 reads (R420 to R422) -/

/-- MSTAT. -/
def mstat (s : State) : Word :=
  let t := s.status
  let bit := fun (b : Bool) n => if b then 2 ^ n else 0
  BitVec.ofNat 64 (bit t.recov 63 + bit t.run 62 + bit t.hot 61 + t.clk % 256 * 2 ^ 48 + t.tmax % 256 * 2 ^ 40 + t.stage % 16 * 2 ^ 36
    + t.hbmu.toNat * 2 ^ 24 + t.wvu.toNat * 2 ^ 8 + t.ret)
/-- PSTAT, SCRPROD and SCRCONS. -/
def partStatus (x : Part) (n : Nat) : Word :=
  if !x.set then 0 else
    match n with
    | 0 => BitVec.ofNat 64 (1 + if x.tear then 2 else 0)
    | 1 => x.scrprod.setWidth 64
    | 2 => x.scrcons.setWidth 64
    | _ => 0
/-- QSTAT. -/
def qstat (q : HostQ) : Word := BitVec.ofNat 64 ((if q.stale then 2 ^ 63 else 0) + q.head.toNat)

/-! ### Where the registers lie in BAR0 and BAR2 (R419) -/

/-- A BAR0 read of the 64-bit word at an offset; what the chapter names no register for reads 0. -/
def bar0Read (s : State) (off : Nat) : Word :=
  if off = 0 then mstat s
  else if 0x100 ≤ off ∧ off < 0x200 then partStatus (s.part ((off - 0x100) / 32)) ((off - 0x100) % 32 / 8)
  else if 0x1000 ≤ off ∧ off < 0x1400 then
    let q := s.queue ((off - 0x1000) / 64)
    match (off - 0x1000) % 64 with
    | 0 => q.qcfg | 8 => q.qcpl | 16 => qstat q | _ => 0
  else 0

/-- A BAR0 write of a 64-bit word: QCFG, QCPL and SCRCONS take it. -/
def bar0Write (s : State) (off : Nat) (v : Word) : State :=
  if 0x100 ≤ off ∧ off < 0x200 ∧ off % 32 = 16 then scrconsWrite s ((off - 0x100) / 32) v
  else if 0x1000 ≤ off ∧ off < 0x1400 then
    match (off - 0x1000) % 64 with
    | 0 => qcfgWrite s ((off - 0x1000) / 64) false v
    | 8 => qcfgWrite s ((off - 0x1000) / 64) true v
    | _ => s
  else s

/-- A 32-bit write to BAR2: the doorbells. -/
def bar2Write (s : State) (off : Nat) (v : BitVec 32) : State := if off < 128 ∧ off % 8 = 0 then doorbell s (off / 8) v.toNat else s

/-! ## Start (R427, R428) -/

/-- The firmware image is run: its keys are the fused ones, both signatures verify over its digest, and its version is not below the
fused one (R429). -/
def imageRuns : Bool :=
  let d := sha384 Config.firmware
  sha384 Config.rsaKey == Config.rsaKeyHash && sha384 Config.slhKey == Config.slhKeyHash &&
    Config.rsaVerifies Config.rsaKey d && Config.slhVerifies Config.slhKey d &&
    decide (Config.securityVersion.toNat ≤ Config.firmwareVersion)

def stageUnits (st : Nat) : Nat :=
  match st with
  | 4 => 8 | 5 => 4 | 7 => 16 | _ => 1
/-- Variants of a stage's table: rates, presets, or presets for each rate. -/
def stageVariants (st : Nat) : Nat :=
  match st with
  | 4 => 3 | 5 => 8 | 6 => 33 | 7 => 3 | _ => 1
def stageOptional (st : Nat) : Bool := st == 4 || st == 7
/-- A stage that a repeat alters. -/
def stageAltered (st : Nat) : Bool := decide (1 < stageVariants st)

/-- The last entry of the journal for a stage and unit. -/
def journalLast (l : List JournalRec) (st u : Nat) : Option JournalRec := (l.filter fun r => r.stage == st && r.unit == u).getLast?

/-- What a stage does on a unit: its entry, none when a mandatory stage has no variant left. `ok` is how the hardware finds it. -/
def unitStart (l : List JournalRec) (st u : Nat) (ok : Bool) : Option JournalRec :=
  let run := fun v => some ⟨st, u, v, if ok then 1 else 0⟩
  match journalLast l st u with
  | none => run 0
  | some r =>
    if r.outcome = 1 then run r.variant
    else if r.outcome = 2 then run (min (stageVariants st - 1) (r.variant + 1))
    else if stageOptional st then some ⟨st, u, r.variant, 2⟩
    else if !stageAltered st then run 0
    else if r.variant + 1 < stageVariants st then run (r.variant + 1)
    else none

/-- How far a start has come: the journal, the status, and whether a stage has failed. -/
structure Start where
  journal : List JournalRec
  status  : Status
  halted  : Bool
deriving DecidableEq, Repr

/-- One unit of a stage; stage 3 fails where the image is not to be run (R429). -/
def startUnit (stages : List StageRec) (st : Nat) (old : List JournalRec) (a : Start) (u : Nat) : Start :=
  let ok := ((stages.find? fun r => r.stage == st && r.unit == u).map (·.ok)).getD true && (st != 3 || imageRuns)
  let bad := fun (a : Start) (v : Nat) =>
    { a with halted := true
             status := { a.status with recov := a.status.recov || (!stageOptional st && decide (stageVariants st ≤ v + 1)) } }
  let mark := fun (x : Status) =>
    if st = 4 then { x with hbmu := x.hbmu ||| (1#8 <<< u) } else { x with wvu := x.wvu ||| (1#16 <<< u) }
  match unitStart old st u ok with
  | none => bad a (stageVariants st)
  | some r =>
    let a := { a with journal := a.journal ++ [r] }
    if r.outcome = 0 then bad a r.variant
    else if r.outcome = 2 then { a with status := mark a.status } else a

/-- One stage; it begins when every earlier one has succeeded or been skipped. -/
def startStage (stages : List StageRec) (a : Start) (st : Nat) : Start :=
  if a.halted then a else
    let b := (upFrom 0 (stageUnits st)).foldl (startUnit stages st a.journal) a
    if b.halted then b else { b with status := { b.status with stage := st, run := st == 9 } }

/-- Module reset: every register takes its reset value, and the stages of the start run in order, with the outcomes the
hardware finds. The instruction stores are empty (R109) and every discard bit is cleared (R226); stage 8 clears the scratchpads. -/
def moduleReset (s : State) (stages : List StageRec) : State :=
  let a := (upFrom 1 9).foldl (startStage stages) ⟨s.journal, Status.reset, false⟩
  let clear := decide (8 ≤ a.status.stage)
  { State.reset with
    mem := s.mem.filter fun e => decide (e.1 < if clear then 2 ^ 52 else 2 ^ 55)
    discard := []
    status := a.status, journal := a.journal, modno := s.modno, agenda := s.agenda }

/-- Without power everything is lost but host memory and the journal in flash (R116, R428). -/
def powerRemoval (s : State) : State :=
  { State.reset with
    power := false, mem := s.mem.filter fun e => decide (2 ^ 51 ≤ e.1) && decide (e.1 < 2 ^ 52)
    journal := s.journal, modno := s.modno, agenda := s.agenda }

/-! ## Thermal limits (R436) -/

def throttle (s : State) (temp watts : Nat) : State :=
  let t := s.status
  let clk := if 95 < temp ∨ 2000 < watts then max 7 (t.clk - 1) else if temp < 90 then min 0x0E (t.clk + 1) else t.clk
  { s with status := { t with clk := clk, tmax := min 255 temp } }

def thermalStop (s : State) (temp : Nat) : State :=
  if temp < 110 then s else { s with status := { s.status with hot := true, tmax := min 255 temp } }

/-! ## Replay (R416 to R418) -/

/-- What a checkpoint holds: the first everything the partition has, later ones the units written since the last. -/
def snapshot (s : State) (p : Nat) : Snapshot :=
  let x := s.part p
  let cores := partCores s p
  let whole := x.ckpts.isEmpty
  { whole := whole, pages := (s.dirty.filter fun e => x.owns (e.1 * 65536)).map (·.1)
    mem := s.mem.filter fun e => x.owns e.1 && (whole || !tracked e.1 || mget false (e.1 / 65536) s.dirty)
    discard := s.discard.filter fun e => x.owns (e.1 * 64)
    cores := cores.map fun c => (c, s.core c), net := s.net.filter fun i => cores.contains i.core
    markers := (upFrom 0 12).flatMap fun j => (s.die j).markers.map fun m => (j, m)
    intake := x.intake, tcbs := x.tcbs, walk := x.walk, ring := x.ring
    hatch := (upFrom 0 4).map fun d => (d, (s.die d).hatch.filter fun e => x.ownsHatch d e.2)
    lens := (upFrom 0 8).map fun n => (n, (s.cellar n).lens.filter fun e => x.ownsSlot n e.1)
    logAt := x.logs.length }

/-- The replay period has elapsed: contexts are pre-empted and dispatch stops; with every context saved and nothing of theirs
outstanding the checkpoint is written, the dirty bits are cleared, and they go on (R416). A replay under its logs reproduces the run that its
later checkpoints were taken in, which stand (R418). -/
def replayCheckpoint (s : State) (p : Nat) : State :=
  let x := s.part p
  if !x.set || x.d 170 2 == 0 then s
  else if !x.pausing then startCheckpoint s p
  else if (partCores s p).all fun c => (s.core c).atRest && (s.core c).outst == 0 then
    let s := s.modPart p fun x => { x with pausing := false }
    if x.replay.isSome then s else
    let k := snapshot s p
    let s := s.modPart p fun x => { x with ckpts := x.ckpts ++ [k] }
    storeReplay { s with dirty := s.dirty.filter fun e => !x.owns (e.1 * 65536) } p
  else s

/-- Put sparse files together again. -/
def mergeMem (m : List Host.Cell) (l : List Host.Cell) : List Host.Cell := l.foldl (fun m e => mput 0#8 e.1 e.2 m) m

/-- A byte of the partition that a checkpoint holds. -/
def Snapshot.covers (k : Snapshot) (a : Nat) : Bool := k.whole || !tracked a || k.pages.contains (a / 65536)

/-- The partition's memory as it was at the last of some checkpoints. -/
def restoreMem (x : Part) (m : List Host.Cell) (l : List Snapshot) : List Host.Cell :=
  l.foldl (fun m k => mergeMem (m.filter fun e => !(x.owns e.1 && k.covers e.1)) k.mem) m

/-- An epoch marker that was on its way is sent again, with the number its die has come to (notes/assumptions/99.md). -/
def resendMarker (s : State) (e : Nat × Marker) : State :=
  let vc := (s.die e.2.src).vc
  s.modDie e.1 fun d => { d with markers := d.markers ++ [⟨e.2.src, vget vc e.2.src 0 - 1, vc⟩] }

/-- The dies that a core of the partition sends from, itself or through its cellars. -/
def partDies (s : State) (p : Nat) : List Nat :=
  (upFrom 0 12).filter fun j => (partCores s p).any fun c => j == dieOf c || (decide (4 ≤ j) && (j - 4) / 2 == dieOf c)

/-- Epoch markers of the run that a replay undoes are applied at once, and take no logged turn: DESIGN CHOICE (notes/assumptions/99.md). -/
def settleMarkers (s : State) (p : Nat) : State :=
  let ours := partDies s p
  { s with dies := s.dies.map fun d =>
      let (mine, rest) := d.markers.partition fun m => ours.contains m.src
      { d with markers := rest, vc := mine.foldl (fun v m => vset v m.src m.epoch) d.vc } }

/-- A replay restores checkpoint `n` and enforces the logs kept since; the checkpoints after it stand, and the whole logs (R418). -/
def replay (s : State) (p n : Nat) : State :=
  let x := s.part p
  match x.ckpts[n]? with
  | none => s
  | some k =>
    if !x.set then s else
      let cores := partCores s p
      let s := { s with
        mem := restoreMem x s.mem (x.ckpts.take (n + 1))
        discard := k.discard.foldl (fun m e => mput false e.1 e.2 m) (s.discard.filter fun e => !x.owns (e.1 * 64))
        dirty := s.dirty.filter fun e => !x.owns (e.1 * 65536)
        net := s.net.filter (fun i => !cores.contains i.core) ++ k.net
        notices := s.notices.filter fun e => e.op.part != p }
      let s := (upFrom 0 8).foldl (fun s n => s.modCellar n fun c =>
        { c with reqs := c.reqs.filter fun o => o.part != p, batches := c.batches.filter fun b => b.op.part != p }) s
      let s := k.cores.foldl (fun s e => s.setCore e.1 e.2) s
      let s := k.markers.foldl resendMarker (settleMarkers s p)
      let s := k.hatch.foldl (fun s e => e.2.foldl (fun s q => s.modDie e.1 fun d => { d with hatch := mput Hatch.zero q.1 q.2 d.hatch }) s)
        (keepHatch s fun d h => !x.ownsHatch d h)
      let s := k.lens.foldl (fun s e => e.2.foldl (fun s q => s.modCellar e.1 fun c => { c with lens := mput (0, 0) q.1 q.2 c.lens }) s)
        (keepLens s fun n i => !x.ownsSlot n i)
      let left := x.logs.drop k.logAt
      s.modPart p fun x =>
        { x with tcbs := k.tcbs, intake := k.intake, walk := k.walk, ring := k.ring, pausing := false
                 replay := if left = [] then none else some left }

/-! ## Events -/

def execQcfgWrite (q : Nat) (cpl : Bool) (v : Word) (s : State) : Host.Outcome State Fault Refusal := event s fun s => qcfgWrite s q cpl v
def execDoorbellWrite (q v : Nat) (ro : Bool) (s : State) : Host.Outcome State Fault Refusal :=
  event s fun s => match ro with
    | false => doorbell s q v
    | true => doorbell s q v
def execCommandFetch (q : Nat) (s : State) : Host.Outcome State Fault Refusal := event s fun s => commandFetch s q
def execCommandFetchRetry (q : Nat) (s : State) : Host.Outcome State Fault Refusal := event s fun s => commandFetchRetry s q
def execArm (q h cnt : Nat) (usec : Bool) (s : State) : Host.Outcome State Fault Refusal :=
  event s fun s => command q (.arm h cnt usec) s fun s => postArming s q ⟨h, false, if usec then some cnt else none, none⟩
def execDec (q h amt : Nat) (s : State) : Host.Outcome State Fault Refusal :=
  event s fun s => command q (.dec h amt) s fun s => postArming s q ⟨h, true, some amt, none⟩
def execInval (q p va len : Nat) (s : State) : Host.Outcome State Fault Refusal :=
  event s fun s => command q (.inval p va len) s fun s => inval s q p va len
def execInvalComplete (p : Nat) (s : State) : Host.Outcome State Fault Refusal := event s fun s => invalComplete s p
def execDbgstop (q c : Nat) (s : State) : Host.Outcome State Fault Refusal :=
  event s fun s => command q (.dbgstop c) s fun s => dbgstop s q c
def execAttest (q nonce report : Nat) (s : State) : Host.Outcome State Fault Refusal :=
  event s fun s => command q (.attest nonce report) s fun s => attest s q nonce report
def execPsetup (q p desc : Nat) (s : State) : Host.Outcome State Fault Refusal :=
  event s fun s => command q (.psetup p desc) s fun s => psetup s q p desc
def execPtear (q p : Nat) (s : State) : Host.Outcome State Fault Refusal :=
  event s fun s => command q (.ptear p) s fun s => ptear s q p
def execScrconsWrite (p : Nat) (v : Word) (s : State) : Host.Outcome State Fault Refusal := event s fun s => scrconsWrite s p v
def execBar4Access (off : Nat) (wr : Option Byte) (s : State) : Host.Outcome State Fault Refusal := event s fun s => bar4Access s off wr
/-- Start follows power-on too, so that it runs on a module without power. -/
def execModuleReset (stages : List StageRec) (s : State) : Host.Outcome State Fault Refusal := .next (moduleReset s stages)
def execThermalThrottle (temp watts : Nat) (s : State) : Host.Outcome State Fault Refusal := event s fun s => throttle s temp watts
def execThermalStop (temp : Nat) (s : State) : Host.Outcome State Fault Refusal := event s fun s => thermalStop s temp
def execReplayCheckpoint (p : Nat) (s : State) : Host.Outcome State Fault Refusal := event s fun s => replayCheckpoint s p
def execReplay (p n : Nat) (s : State) : Host.Outcome State Fault Refusal := event s fun s => replay s p n
def execPowerRemoval (s : State) : Host.Outcome State Fault Refusal := event s powerRemoval

end Sys2Proof.Machine
end

