-- ==== Sys2Proof/Machine/Tm.lean ====
section
/-! DEFINITION. Machine/Tm.lean: the row instructions of tm: the predicate unit, the carder, the reel (R291 to R309), and how
tm's results land. -/

namespace Sys2Proof.Machine

/-! ## Control words (R292) -/

namespace Word16
def act (w : Nat) : Nat := field w 14 2
def rc (w : Nat) : Nat := field w 11 3
def fp (w : Nat) : Bool := bitAt w 10
def blk (w : Nat) : Nat := field w 0 10
/-- A recurse word with a count of 0 is treated as continue. -/
def norm (w : Nat) : Nat := if act w = 3 ∧ rc w = 0 then setField w 14 2 0 else w
end Word16

/-- Control word `r` of an array. -/
def wordAt (s : State) (c off r : Nat) : Nat := readNat s (.core c) (off + 2 * r) 2

/-- How many of `n` words have action `k`, a recurse word with count 0 as continue (R298). -/
def countAct (s : State) (c off n k : Nat) : Nat := ((upFrom 0 n).filter fun r => Word16.act (Word16.norm (wordAt s c off r)) == k).length

/-- {n_recurse, n_exit, n_skip, n_continue} (R298). -/
def actCounts (s : State) (c off n : Nat) : Word :=
  BitVec.ofNat 64 (countAct s c off n 3 * 2 ^ 48 + countAct s c off n 2 * 2 ^ 32 + countAct s c off n 1 * 2 ^ 16 + countAct s c off n 0)

/-- The rewritten word of a row, none where it is left unchanged; `sc` is its score's bits (R298). -/
def predWord (pcfg : Word) (ronly : Bool) (rdef blk w sc : Nat) : Option Nat :=
  let w := Word16.norm w
  let v := unpack .f32 sc
  let ge := fun lo => (fcmpHolds .ge v (unpack .f16 (bvField pcfg lo 16))).1
  let lt := fun lo => (fcmpHolds .lt v (unpack .f16 (bvField pcfg lo 16))).1
  let put := fun w => some (setField w 0 10 blk)
  if ronly ∧ Word16.act w ≠ 3 then none
  else
    match Word16.act w with
    | 2 => none
    | 1 => put (setField w 14 2 0)
    | 3 => if Word16.rc w ≥ 2 then put (setField w 11 3 (Word16.rc w - 1)) else put (setField (setField w 14 2 0) 11 3 0)
    | _ =>
      if ge 48 || lt 0 then put (setField (setField (setField w 14 2 2) 10 1 1) 11 3 0)
      else if ge 32 then put (setField w 14 2 1)
      else if lt 16 && decide (rdef > 0) then put (setField (setField w 14 2 3) 11 3 rdef)
      else put w

/-! ## Issue (R294) -/

/-- A row instruction enters tm's queue. -/
def tmIssue (i : Instr) (a b c : Word) (ha hb hc : HandleBits) (once : Bool) (s : State) : State :=
  submit s (s.mkOp i a b c 0 ha hb hc) once fun x o => { x with tm := x.tm ++ [o] }

def execRcmp (g : Guard) (d a b c : Port) (sh : BitVec 5) (sth : Bool) (rsel : RowSel) (rbase : BitVec 9) (s : State) :
    Host.Outcome State Fault Refusal :=
  issue (.rcmp g d a b c sh sth rsel rbase) s fun s =>
    let hb := s.ctx.handle (hOf b)
    let hs := s.ctx.handle sh.toNat
    tmIssue (.rcmp g d a b c sh sth rsel rbase) 0 0 (s.ctx.val c) (s.ctx.handle (hOf a)) hb hs
      (Handle.lvl hb != 0 || (sth && Handle.lvl hs != 0)) s
def execRrst (g : Guard) (d a b c : Port) (rbase : BitVec 9) (s : State) : Host.Outcome State Fault Refusal :=
  issue (.rrst g d a b c rbase) s fun s =>
    let hb := s.ctx.handle (hOf b)
    tmIssue (.rrst g d a b c rbase) 0 0 (s.ctx.val c) (s.ctx.handle (hOf a)) hb 0 (Handle.lvl hb != 0) s
def execRpred (g : Guard) (d a b c : Port) (ronly : Bool) (rdef : BitVec 3) (blk : BitVec 10) (s : State) :
    Host.Outcome State Fault Refusal :=
  issue (.rpred g d a b c ronly rdef blk) s fun s =>
    tmIssue (.rpred g d a b c ronly rdef blk) (s.ctx.val a) (s.ctx.val b) (s.ctx.val c) 0 0 0 false s
def execRset (g : Guard) (d a b c : Port) (v : BitVec 16) (s : State) : Host.Outcome State Fault Refusal :=
  issue (.rset g d a b c v) s fun s => tmIssue (.rset g d a b c v) (s.ctx.val a) (s.ctx.val b) (s.ctx.val c) 0 0 0 false s
def execRsetCfg (g : Guard) (a : Port) (s : State) : Host.Outcome State Fault Refusal :=
  issue (.rsetCfg g a) s (fun s => tmIssue (.rsetCfg g a) (s.ctx.val a) 0 0 0 0 0 false s)
def execRcnt (g : Guard) (e : Bool) (d a b : Port) (sl : BitVec 2) (s : State) : Host.Outcome State Fault Refusal :=
  issue (.rcnt g e d a b sl) s fun s => tmIssue (.rcnt g e d a b sl) (s.ctx.val a) (s.ctx.val b) 0 0 0 0 false s

/-! ## Starting (R294, R296, R307) -/

def isRowInstr : Instr → Bool
  | .rcmp .. | .rrst .. | .rpred .. | .rset .. | .rsetCfg .. | .rcnt .. => true
  | _ => false

/-- tm works on its queue: the context runs, or is being saved (R309). -/
def Core.tmGoes (x : Core) (o : Op) : Bool := (x.mode == .u || x.saving) && !fencedBefore x o && !storesDue x o.id

/-- The row instruction at the head of tm's queue starts; RSET.cfg sets PCFG (R307). -/
def rowStart (s : State) (c : Nat) : State :=
  let x := s.core c
  match x.rowRun, x.tm with
  | none, o :: r =>
    if !isRowInstr o.ins || !x.tmGoes o then s else
      let s := s.modCore c fun x => { x with tm := r, rowRun := some { o with phase := .started } }
      match o.ins with
      | .rsetCfg .. => s.modCtxFor c o.id fun y => { y with pcfg := o.a }
      | _ => s
  | _, _ => s

/-! ## Effects (R298 to R308) -/

/-- The space and first byte of row `r` of a row handle. -/
def rowPlace (o : Op) (h : HandleBits) (r : Nat) : Space × Nat := (levelSpace o.core (Handle.lvl h) 0xFF, Handle.nibbleOf h 0 r 0 0 / 2)
def readRow (s : State) (o : Op) (h : HandleBits) (r : Nat) : List Byte :=
  let (sp, a) := rowPlace o h r
  readBytes s sp a (rowBytes h)
def writeRow (s : State) (o : Op) (h : HandleBits) (r : Nat) (l : List Byte) : State :=
  let (sp, a) := rowPlace o h r
  opWrite s o (isOnce s o) sp a l
def writeWord (s : State) (o : Op) (off r v : Nat) : State := opWrite s o (isOnce s o) (.core o.core) (off + 2 * r) (leBytes v 2)
def setReel (s : State) (o : Op) (i : Nat) (v : BitVec 16) : State := s.modCtxFor o.core o.id fun x => { x with reel := vset x.reel i v }

/-- RPRED over rows from `r` (R298). -/
def rpredRows (o : Op) (ronly : Bool) (rdef blk r : Nat) (s : State) : Nat → State
  | 0 => s
  | n + 1 =>
    let w := wordAt s o.core o.b.toNat r
    let sc := readNat s (.core o.core) (o.a.toNat + 4 * r) 4
    let s := match predWord (s.core o.core).ctx.pcfg ronly rdef blk w sc with
      | some v => writeWord s o o.b.toNat r v
      | none => s
    rpredRows o ronly rdef blk (r + 1) s n

/-- RCMP's selection (R302). -/
def selects (sel : RowSel) (w : Nat) : Bool :=
  match sel, Word16.act (Word16.norm w) with
  | .live, 0 | .live, 3 | .recurse, 3 | .cont, 0 => true
  | _, _ => false

/-- The selected rows of a set, in order. -/
def selected (s : State) (o : Op) (sel : RowSel) : List Nat :=
  (upFrom 0 (Handle.size o.ha 1)).filter fun r => selects sel (wordAt s o.core o.c.toNat r)

/-- Pack rows into B and note them in the reel (R302). -/
def packRows (o : Op) (reel0 : Nat) (s : State) : List Nat → Nat → State
  | [], _ => s
  | r :: l, k => packRows o reel0 (setReel (writeRow s o o.hb k (readRow s o o.ha r)) o (reel0 + k) (BitVec.ofNat 16 r)) l (k + 1)

/-- Dead padding of the last granule (R302). -/
def padRows (o : Op) (reel0 k : Nat) (s : State) : Nat → State
  | 0 => s
  | n + 1 => padRows o reel0 (k + 1) (setReel (writeRow s o o.hb k (rep 0#8 (rowBytes o.hb))) o (reel0 + k) 0x8000) n

/-- Stash exiting rows whose records fit (R303): the state and the number written. -/
def stashRows (o : Op) (s : State) : List Nat → Nat → State × Nat
  | [], k => (s, k)
  | r :: l, k =>
    let w := wordAt s o.core o.c.toNat r
    let n := recordBytes o.ha
    if Word16.act w = 2 ∧ Word16.fp w ∧ (k + 1) * n ≤ Handle.size o.hc 0 then
      let b := rowBytes o.ha
      let rec' := leBytes r 2 ++ leBytes (Word16.blk w) 2 ++ rep 0#8 12 ++ readRow s o o.ha r ++ rep 0#8 (n - 16 - b)
      let s := opWrite s o (isOnce s o) (levelSpace o.core (Handle.lvl o.hc) 0xFF) (Handle.base o.hc + k * n) rec'
      stashRows o (writeWord s o o.c.toNat r (setField w 10 1 0)) l (k + 1)
    else stashRows o s l k

def rcmpRun (s : State) (o : Op) (sth : Bool) (sel : RowSel) (rbase : Nat) : State × Word :=
  let rows := selected s o sel
  let l := rows.length
  let g := ceilDiv l 8
  let s := padRows o (8 * rbase) l (packRows o (8 * rbase) s rows 0) (8 * g - l)
  let (s, k) := if sth then stashRows o s (upFrom 0 (Handle.size o.ha 1)) 0 else (s, 0)
  (s, BitVec.ofNat 64 (k * 2 ^ 48 + g * 2 ^ 32 + ceilDiv l 64 * 2 ^ 16 + l))

/-- RRST from compacted row `p` (R304): the state, rows restored and skipped. -/
def rrstRows (o : Op) (reel0 p : Nat) (s : State) (done skip : Nat) : Nat → State × Nat × Nat
  | 0 => (s, done, skip)
  | n + 1 =>
    let e := (vget (s.core o.core).ctx.reel (reel0 + p) 0).toNat
    if bitAt e 15 || decide (Handle.size o.hb 1 ≤ e % 4096) then rrstRows o reel0 (p + 1) s done (skip + 1) n
    else rrstRows o reel0 (p + 1) (writeRow s o o.hb (e % 4096) (readRow s o o.ha p)) (done + 1) skip n

/-- RSET's writes (R307). -/
def rsetRows (o : Op) (v r : Nat) (s : State) : Nat → State
  | 0 => s
  | n + 1 => rsetRows o v (r + 1) (writeWord s o o.a.toNat r v) n

/-- RCNT's result (R308). -/
def rcntWord (s : State) (o : Op) (sl : Nat) : Word :=
  match sl with
  | 0 => actCounts s o.core o.a.toNat o.b.toNat
  | 1 => BitVec.ofNat 64 ((upFrom 0 o.b.toNat).filter fun r =>
      let w := wordAt s o.core o.a.toNat r
      Word16.act w == 2 && Word16.fp w).length
  | _ =>
    let l := bvField o.a 0 16
    if l = 0 then BitVec.allOnes 64 else if l % 64 = 0 then 0 else BitVec.ofNat 64 (2 ^ 64 - 2 ^ (l % 64))

/-- What a row instruction writes, and its result for tm.y. -/
def rowRunEffect (s : State) (o : Op) : State × Word :=
  match o.ins with
  | .rcmp _ _ _ _ _ _ sth sel rbase => rcmpRun s o sth sel rbase.toNat
  | .rrst _ _ _ _ _ rbase =>
    let (s, done, skip) := rrstRows o (8 * rbase.toNat) 0 s 0 0 (bvField o.c 0 16)
    (s, BitVec.ofNat 64 (skip * 2 ^ 16 + done))
  | .rpred _ _ _ _ _ ronly rdef blk =>
    let s := rpredRows o ronly rdef.toNat blk.toNat 0 s o.c.toNat
    (s, actCounts s o.core o.b.toNat o.c.toNat)
  | .rset _ _ _ _ _ v => (rsetRows o v.toNat o.b.toNat s o.c.toNat, 0)
  | .rcnt _ _ _ _ _ sl => (s, rcntWord s o sl.toNat)
  | _ => (s, 0)

/-! ## Completing (R295, R309) -/

/-- The E bit of an instruction that writes tm.y and a destination. -/
def tmEph : Instr → Bool
  | .rcnt _ e .. | .kvtent _ e .. => e
  | _ => false

/-- A result that comes once its context's image has been written is put there: a register, no longer ephemeral or expired (R119,
R395). `base` is the image's virtual address. -/
def imageWr (c : Nat) (t : BitVec 16) (base : Nat) (s : State) (w : Wr) : State :=
  let eph := fun (r : Nat) (b : Bool) (s : State) => s.modCore c fun x =>
    { x with spillEph := mput 0 t.toNat (bvSet (mget 0 t.toNat x.spillEph) r 1 (if b then 1 else 0)) x.spillEph }
  match w with
  | .scalar r v => eph r false (awayPut s c (base + 0x080 + 8 * r) (leBytes v.toNat 8))
  | .eph r _ => eph r true s
  | .pred r v => awayPut s c (base + 0x2D0) (leBytes (setField (awayGet s c (base + 0x2D0) 1) r 1 (if v then 1 else 0) ||| 1) 1)
  | _ => s

/-- A result of tm lands at completion; while the core is frozen it enters the in-flight list, with the flag its operation raises (R295,
R309); once its context's image has been written it is put there. -/
def tmLand (s : State) (o : Op) (wrs : List Wr) : State :=
  let c := o.core
  let x := s.core c
  if !o.runs x then s
  else if x.saved != .no then
    match x.awayOf o.ctag with
    | some a => if a.addr % 0x1000 = 0x948 then wrs.foldl (imageWr c o.ctag (a.addr - 0x948)) s else s
    | none => s
  else landLate s c ⟨o.id, 0, .tm, 6, 0#8, wrs⟩ (x.mode == .s)

/-- The writes of an operation of tm: its destination and tm.y. -/
def tmWrs (o : Op) : List Wr := if writesTmY o.ins then destWrs .tm (tmEph o.ins) (tmDest o.ins) o.val else []

/-- A row instruction ends. While the core is frozen its flag's increment enters the in-flight list (R309). -/
def rowEnd (s : State) (o : Op) : State :=
  let x := s.core o.core
  if o.runs x && x.mode == .s && x.saved == .no then
    let flag := if o.fails = 0 then (flagOf o.ins).toList.map Wr.flag else []
    let wrs := tmWrs o ++ flag
    dropOutstanding (if wrs.isEmpty then s else tmLand s o wrs) o
  else endOp (if writesTmY o.ins then tmLand s o (tmWrs o) else s) o

/-- The running row instruction applies its writes and completes. -/
def rowComplete (s : State) (c : Nat) : State :=
  match (s.core c).rowRun with
  | none => s
  | some o =>
    match settled s o with
    | none => s
    | some _ =>
      let (s, v) := rowRunEffect s o
      let s := s.modCore c fun x => { x with rowRun := none }
      let o := { o with val := v }
      rowEnd s ((settled s o).getD o)

def execRowInstructionStart (c : Nat) (s : State) : Host.Outcome State Fault Refusal := event s fun s => rowStart s c
def execRowInstructionComplete (c : Nat) (s : State) : Host.Outcome State Fault Refusal := event s fun s => rowComplete s c

end Sys2Proof.Machine
end

