-- ==== Sys2Proof/Machine/Cellar.lean ====
section
/-! DEFINITION. Machine/Cellar.lean: pages, sequence slots, the darner and decode attention of the cellar units (R311 to
R331). -/

namespace Sys2Proof.Machine

/-! ## Sequence slots (R315) -/

/-- CL and TL of a sequence slot. -/
def lensOf (s : State) (n slot : Nat) : Nat × Nat := mget (0, 0) slot (s.cellar n).lens
def setLens (s : State) (n slot cl tl : Nat) : State := s.modCellar n fun k => { k with lens := mput (0, 0) slot (cl, tl) k.lens }

/-- A sequence slot lies in the partition's range of the cellar (R315, R433). -/
def slotOwned (s : State) (p n slot : Nat) : Bool :=
  let w := (s.part p).d (192 + 8 * n) 8
  decide (field w 0 12 ≤ slot) && decide (slot < field w 0 12 + field w 16 13)

/-! ## Reaching the stack (R316) -/

/-- The channels an extent of physical addresses touches. -/
def channelsOf (a len : Nat) : List Nat := if len = 0 then [] else upFrom (a / 2 ^ 30) ((a + len - 1) / 2 ^ 30 - a / 2 ^ 30 + 1)

/-- The cause of an extent that does not lie in the partition's channels of stack `n`. -/
def stackCause (s : State) (p n a len : Nat) : Option Nat :=
  (channelsOf a len).findSome? fun ch =>
    if ch < 512 ∧ (s.part p).hasChannel ch then (if ch / 64 = n then none else some 0x124) else some 0x0A3

/-- A misaligned extent is 0x126; one that does not lie in the stack has `stackCause`. -/
def reach (s : State) (p n a len align : Nat) : Except Nat Unit :=
  if a % align ≠ 0 then .error 0x126 else
    match stackCause s p n a len with
    | some k => .error k
    | none => .ok ()

/-! ## Pages (R317, R318) -/

/-- The format of a page, none for a code R317 does not list. -/
def pageFmt (c : Nat) : Option Fmt :=
  match c with
  | 3 => some .bf16 | 4 => some .e4m3 | 5 => some .e5m2 | 7 => some .i8 | _ => none
def pageFmtCode (f : Fmt) : Nat := f.code.toNat

/-- A page as a request sees it: its base, header, element format and head-group code. -/
structure Page where
  base : Nat
  hdr  : Nat
  fmt  : Fmt
  hgc  : Nat

def Page.hg (p : Page) : Nat := 2 ^ p.hgc
def Page.w (p : Page) : Nat := fmtWidth p.fmt / 8
def pageBytes (f : Fmt) (hgc : Nat) : Nat := 64 + 16384 * 2 ^ hgc * (fmtWidth f / 8)
/-- The address of K, or of V, of slot `j`, head 0. -/
def Page.slotAddr (p : Page) (v : Bool) (j : Nat) : Nat :=
  p.base + 64 + (if v then 8192 * p.hg * p.w else 0) + j * p.hg * 128 * p.w
def Page.scale (p : Page) (v : Bool) : Nat := field p.hdr (if v then 96 else 64) 32
def Page.gap (p : Page) (j : Nat) : Bool := bitAt p.hdr (128 + j)

/-- The page that holds a position: the list's entry, followed blindly (R316). -/
def pageBase (s : State) (part n plist pos : Nat) : Except Nat Nat := do
  let a := plist + 8 * (pos / 64)
  reach s part n a 8 8
  pure (readNat s .pa a 8)

/-- A page as its header describes it. A header whose format R317 does not list is taken as a mismatch. -/
def openPage (s : State) (part n base : Nat) : Except Nat Page := do
  reach s part n base 64 64
  let h := readNat s .pa base 64
  match pageFmt (field h 0 4) with
  | none => .error 0x123
  | some f =>
    reach s part n base (pageBytes f (field h 4 2)) 64
    pure ⟨base, h, f, field h 4 2⟩

def putHeader (s : State) (p : Page) : State := writeNat s .pa p.base 64 p.hdr

/-- The exact value of a code of a page (R318). -/
def Page.value (p : Page) (v : Bool) (code : Nat) : FV :=
  match p.fmt with
  | .bf16 => unpack .bf16 code
  | .i8 => FV.mul (FV.ofInt (sextNat 8 code) 0) (unpack .f32 (p.scale v))
  | f => FV.mul (unpack f code) (unpack .f32 (p.scale v))

/-- The 128 exact values of one head of a slot. -/
def Page.head (s : State) (p : Page) (v : Bool) (j h : Nat) : List FV :=
  let a := p.slotAddr v j + h * 128 * p.w
  (upFrom 0 128).map fun i => p.value v (readNat s .pa (a + i * p.w) p.w)

/-! ## Writing a token (R319, R320) -/

/-- The header a write of slot 0 gives a page (R319). -/
def freshHeader (f : Fmt) (hgc : Nat) : Nat := pageFmtCode f + hgc * 16 + one32 * 2 ^ 64 + one32 * 2 ^ 96

/-- Step R319 for a token at slot `j`. -/
def startToken (s : State) (part n base j : Nat) (f : Fmt) (hgc : Nat) : Except Nat (State × Page) := do
  reach s part n base (pageBytes f hgc) 64
  if j = 0 then
    let p : Page := ⟨base, freshHeader f hgc, f, hgc⟩
    pure (putHeader s p, p)
  else
    let h := readNat s .pa base 64
    if field h 0 4 ≠ pageFmtCode f ∨ field h 4 2 ≠ hgc then .error 0x123 else pure (s, ⟨base, h, f, hgc⟩)

def kvMax (f : Fmt) : Nat :=
  match f with
  | .i8 => 127 | .e4m3 => 448 | _ => 57344

/-- Is m · 2^e at most qmax · 2^k? -/
def leScaled (m : Nat) (e : Int) (qmax : Nat) (k : Int) : Bool :=
  if e ≥ k then decide (m * 2 ^ (e - k).toNat ≤ qmax) else decide (m ≤ qmax * 2 ^ (k - e).toNat)

/-- scale_exp (R320). -/
def scaleExp (f : Fmt) (hr : Nat) (l : List FV) : Int :=
  let top := l.foldl (fun (a : FV) x => match x with
    | .fin _ m e => if FV.cmp a (.fin false m e) == .lt then .fin false m e else a
    | _ => a) (.fin false 0 0)
  match top with
  | .fin _ m e =>
    if m = 0 then 0 else
      let e := e + hr
      let g : Int := e + Nat.log2 m - Nat.log2 (kvMax f) - 1
      let k := ([g, g + 1].find? fun k => leScaled m e (kvMax f) k).getD (g + 2)
      max (-126) (min 127 k)
  | _ => 0

/-- A power of two as binary32. -/
def pow2Bits (e : Int) : Nat := (e + 127).toNat * 2 ^ 23

/-- Rounding of a finite value to a page's codes without the overflow step: the code, whether it is beyond qmax, and NX
where the rounding was inexact (R320, R331). -/
def kvRound (f : Fmt) (neg : Bool) (m : Nat) (e : Int) : Nat × Bool × FlagSet :=
  match f with
  | .i8 =>
    let (y, inexact) := roundInt .rne neg m e
    (wrap 8 y, decide (y.natAbs > 127), flagIf inexact fNX)
  | f =>
    if m = 0 then (if neg then signBit f else 0, false, 0#8) else
      let q := quantum f m e
      let (k, inexact) := roundAt .rne neg m e q
      ((if neg then signBit f else 0) + packFinite f k q, overflows f k q, flagIf inexact fNX)

/-- ±qmax as a code. -/
def kvLimit (f : Fmt) (neg : Bool) : Nat :=
  match f with
  | .i8 => wrap 8 (if neg then -127 else 127)
  | f => (if neg then signBit f else 0) + maxFiniteBits f

/-- kvcode (R320): the code, whether it saturated, the flags. -/
def kvCode (f : Fmt) (scale : Nat) (x : FV) : Nat × Bool × FlagSet :=
  match f with
  | .bf16 => let (y, fl) := roundF .bf16 .rne false x; (y, false, fl)
  | f =>
    match x with
    | .nan _ => (if f = .i8 then 0 else canonNaN f, false, fIV)
    | .inf neg => (kvLimit f neg, true, fSO)
    | .fin neg _ _ =>
      match (FV.div x (unpack .f32 scale)).1 with
      | .fin n m e =>
        let (y, ov, fl) := kvRound f n m e
        if ov then (kvLimit f n, true, fl ||| fSO) else (y, false, fl)
      | .inf n => (kvLimit f n, true, fSO)
      | .nan _ => (kvLimit f neg, true, fSO)

/-- Code and store a run of values: the state, how many saturated, the flags. -/
def storeCodes (p : Page) (v : Bool) (a : Nat) (s : State) : List FV → State × Nat × FlagSet
  | [] => (s, 0, 0#8)
  | x :: r =>
    let (y, sat, f) := kvCode p.fmt (p.scale v) x
    let (s, n, g) := storeCodes p v (a + p.w) (writeNat s .pa a p.w y) r
    (s, n + (if sat then 1 else 0), f ||| g)

/-- kvstore (R320): K and V values of slot `j`, head by head. -/
def kvStore (s : State) (p : Page) (j hr : Nat) (xk xv : List FV) : State × FlagSet :=
  let hdr := if p.fmt != .bf16 && !bitAt p.hdr 6 then
      setField (setField (setField p.hdr 64 32 (pow2Bits (scaleExp p.fmt hr xk))) 96 32 (pow2Bits (scaleExp p.fmt hr xv))) 6 1 1
    else p.hdr
  let p := { p with hdr := hdr }
  let (s, nk, fk) := storeCodes p false (p.slotAddr false j) s xk
  let (s, nv, fv) := storeCodes p true (p.slotAddr true j) s xv
  let hdr := setField hdr (128 + j) 1 0
  let hdr := if nk + nv = 0 then hdr else setField (setField hdr 7 1 1) 32 16 (min 65535 (field hdr 32 16 + nk + nv))
  (putHeader s { p with hdr := hdr }, fk ||| fv)

/-! ## The darner (R323 to R326) -/

/-- A layer descriptor (R325). -/
structure Layer where
  wk : Nat
  wv : Nat
  dh : Nat
  hf : Fmt
  wf : Fmt
  hgc : Nat
  layer : Nat

def readLayer (s : State) (part n a : Nat) : Except Nat Layer := do
  reach s part n a 64 64
  let g := fun o k => readNat s .pa (a + o) k
  let hf := match g 18 1 % 16 with
    | 0 => some Fmt.f32 | 2 => some .f16 | 3 => some .bf16 | _ => none
  let wf := match g 18 1 / 16 with
    | 2 => some Fmt.f16 | 3 => some .bf16 | 4 => some .e4m3 | _ => none
  let dh := g 16 2
  match hf, wf with
  | some hf, some wf =>
    if dh % 8 ≠ 0 ∨ dh < 8 ∨ 16384 < dh ∨ 3 < g 19 1 ∨ 1023 < g 20 2 ∨ g 22 42 ≠ 0 then .error 0x120
    else pure ⟨g 0 8, g 8 8, dh, hf, wf, g 19 1, g 20 2⟩
  | _, _ => .error 0x120

/-- The projection of a hidden state onto one output lane: partial sums of eight, each rounded to binary32 (R326). -/
def project (acc : FV) (fl : FlagSet) : List FV → List FV → Nat → FV × FlagSet
  | _, _, 0 => (acc, fl)
  | w, h, n + 1 =>
    let t := exactSum ((w.take 8).zip (h.take 8) |>.map fun (x, y) => FV.mul x y)
    let (y, f) := roundF .f32 .rne false (FV.add .rne acc t)
    project (unpack .f32 y) (fl ||| f) (w.drop 8) (h.drop 8) n

/-- The rows of a projection applied to a hidden state: HG × 128 values. -/
def projectAll (s : State) (l : Layer) (w : Nat) (h : List FV) : List (FV × FlagSet) :=
  let b := fmtWidth l.wf / 8
  (upFrom 0 (2 ^ l.hgc * 128)).map fun r =>
    project (.fin false 0 0) 0#8 ((upFrom 0 l.dh).map fun c => unpack l.wf (readNat s .pa (w + (r * l.dh + c) * b) b)) h (l.dh / 8)

/-- Fill the gap at slot `j` of a page: the state and flags, or a cause; a failed fill leaves the gap (R326). Weights that lie in no
channel of the partition give 0x0A3, as R316 and R334 have it, and on another stack of it 0x124: DESIGN CHOICE (notes/assumptions/110.md). -/
def darn (s : State) (part n : Nat) (p : Page) (j ldesc : Nat) : Except Nat (State × FlagSet) := do
  let l ← readLayer s part n ldesc
  if l.hgc ≠ p.hgc then .error 0x123
  let g := p.slotAddr false j
  let ra := readNat s .pa g 8
  let hr := readNat s .pa (g + 8) 1 % 8
  let hb := fmtWidth l.hf / 8
  reach s part n ra (16 + l.dh * hb) 16
  let wlen := 2 ^ l.hgc * 128 * l.dh * (fmtWidth l.wf / 8)
  reach s part n l.wk wlen 1
  reach s part n l.wv wlen 1
  if l.layer ≤ readNat s .pa (ra + 2) 2 then .error 0x125
  let h := (upFrom 0 l.dh).map fun c => unpack l.hf (readNat s .pa (ra + 16 + c * hb) hb)
  let xk := projectAll s l l.wk h
  let xv := projectAll s l l.wv h
  let (s', f) := kvStore s p j hr (xk.map (·.1)) (xv.map (·.1))
  pure (s', f ||| joinFlags (xk.map fun e => (0, e.2)) ||| joinFlags (xv.map fun e => (0, e.2)))

/-- Fill every gap among positions `pos`, ascending: what was filled stays, whatever follows. A slot that is no gap asks
nothing of its page's format. -/
def darnRange (part n plist ldesc : Nat) (s : State) (fl : FlagSet) : List Nat → State × FlagSet × Option Nat
  | [] => (s, fl, none)
  | pos :: r =>
    let step : Except Nat (State × FlagSet) := do
      let base ← pageBase s part n plist pos
      reach s part n base 64 64
      if bitAt (readNat s .pa base 64) (128 + pos % 64) then
        let p ← openPage s part n base
        darn s part n p (pos % 64) ldesc
      else pure (s, 0#8)
    match step with
    | .error k => (s, fl, some k)
    | .ok (s, f) => darnRange part n plist ldesc s (fl ||| f) r

/-! ## Decode attention (R329, R330) -/

/-- An attention descriptor entry (R329). -/
structure AttnEntry where
  plist : Nat
  ldesc : Nat
  ssc   : Nat
  slot  : Nat
  hk    : Nat
  lim   : Nat
  ok    : Bool

def AttnEntry.of (l : List Byte) : AttnEntry :=
  let g := bytesAt l
  ⟨g 0 8, g 8 8, g 16 4, g 20 2, g 22 1, g 24 4, decide (g 20 2 < 4096) && decide (g 22 1 < 8) && g 23 1 == 0 && g 28 4 == 0⟩

/-- K and V of a position's head. -/
def kvAt (s : State) (part n plist hk pos : Nat) : Except Nat (List FV × List FV) := do
  let base ← pageBase s part n plist pos
  let p ← openPage s part n base
  if p.hg ≤ hk then .error 0x120 else pure (p.head s false (pos % 64) hk, p.head s true (pos % 64) hk)

/-- K and V of every position below the limit. -/
def kvAll (s : State) (part n plist hk : Nat) : List Nat → Except Nat (List (List FV × List FV))
  | [] => .ok []
  | pos :: r => do
    let x ← kvAt s part n plist hk pos
    let l ← kvAll s part n plist hk r
    pure (x :: l)

/-- A score (R330): one rounding. -/
def scoreOf (ssc : Nat) (dir : List Int) (norm : Nat) (k : List FV) : LaneOut :=
  let nv := unpack .f32 norm
  if nv.isNaN then (nan32, 0#8)
  else if norm = ninf32 then (0, 0#8)
  else
    let dot := exactSum (dir.zip k |>.map fun (x, y) => FV.mul (FV.ofInt x 0) y)
    roundF .f32 .rne false (FV.mul (FV.mul (unpack .f32 ssc) (exp2V (FV.add .rne nv (FV.ofInt (-14) 0)))) dot)

def maxScore (l : List Nat) : Nat := l.foldl (fun m x => if FV.cmpZ (unpack .f32 m) (unpack .f32 x) == .lt then x else m) ninf32

/-- The triple of scores and values (R330). -/
def attnTriple (scores : List Nat) (vs : List (List FV)) : Triple × FlagSet :=
  if scores.any fun x => (unpack .f32 x).isNaN then (⟨nan32, nan32, rep nan32 128⟩, 0#8)
  else if scores.all (· == ninf32) then (Triple.empty 128, 0#8)
  else
    let m := maxScore scores
    let p := scores.map fun x => lseFactor x m
    let pv := p.map fun (e : LaneOut) => unpack .f32 e.1
    let (sum, f) := roundF .f32 .rne false (exactSum pv)
    let a := (upFrom 0 128).map fun i => roundF .f32 .rne false (exactSum (pv.zip vs |>.map fun (x, v) => FV.mul x (v.getD i (.fin false 0 0))))
    (⟨m, sum, a.map (·.1)⟩, f ||| joinFlags p ||| joinFlags a)

/-- The 1,024 bytes of a triple (R330). -/
def Triple.bytes (t : Triple) : List Byte :=
  let w := fun (l : List Nat) => l.flatMap fun x => leBytes x 4
  let ms := leBytes t.m 4 ++ leBytes t.s 4 ++ rep 0#8 248
  w (t.a.take 64) ++ ms ++ w (t.a.drop 64) ++ ms

/-- One query row: gaps are filled first, then the triple is computed. The state keeps what was filled even where the row
fails (R330). HK is held against the pages' HG once the gaps are filled, and at no page where LIM is 0 (R329): DESIGN CHOICE
(notes/assumptions/111.md). -/
def attnRow (s : State) (part n : Nat) (entry : List Byte) (q : Pair) : State × FlagSet × Except Nat (List Byte) :=
  let e := AttnEntry.of entry
  if !e.ok then (s, 0#8, .error 0x120)
  else if !slotOwned s part n e.slot then (s, 0#8, .error 0x121)
  else if (lensOf s n e.slot).2 < e.lim then (s, 0#8, .error 0x122)
  else
    match darnRange part n e.plist e.ldesc s 0#8 (upFrom 0 e.lim) with
    | (s, f, some k) => (s, f, .error k)
    | (s, f, none) =>
      match kvAll s part n e.plist e.hk (upFrom 0 e.lim) with
      | .error k => (s, f, .error k)
      | .ok kv =>
        let sc := kv.map fun x => scoreOf e.ssc q.d q.n x.1
        let (t, g) := attnTriple (sc.map (·.1)) (kv.map (·.2))
        (s, f ||| g ||| joinFlags sc, .ok t.bytes)

/-! ## Appends and rescaling (R321, R331) -/

/-- An append descriptor (R321). -/
structure AppendDesc where
  plist : Nat
  slot  : Nat
  fmt   : Nat
  hgc   : Nat
  hr    : Nat
  ok    : Bool

def AppendDesc.of (l : List Byte) : AppendDesc :=
  let g := bytesAt l
  ⟨g 0 8, g 8 2, g 10 1 % 16, g 11 1 % 4, g 12 1 % 8,
    decide (g 10 1 < 16) && decide (g 11 1 < 4) && decide (g 12 1 < 8) && g 13 19 == 0 && decide (g 8 2 < 4096)⟩

/-- A token to append: its K and V values, or the address of its hidden record. -/
inductive Token where
  | data (k v : List FV)
  | gap (ra : Nat)

/-- Append tokens from the `i`-th, at position `pos`: those before a failure stay written; a failure carries its token
(R321). -/
def appendTokens (part n : Nat) (d : AppendDesc) (f : Fmt) (i pos : Nat) (s : State) (fl : FlagSet) :
    List Token → State × FlagSet × Option (Nat × Nat)
  | [] => (s, fl, none)
  | t :: r =>
    let j := pos % 64
    let step : Except Nat (State × FlagSet) := do
      let base ← pageBase s part n d.plist pos
      let (s, p) ← startToken s part n base j f d.hgc
      match t with
      | .gap ra =>
        let s := putHeader s { p with hdr := setField p.hdr (128 + j) 1 1 }
        pure (writeNat (writeNat s .pa (p.slotAddr false j) 8 ra) .pa (p.slotAddr false j + 8) 1 d.hr, 0#8)
      | .data k v => pure (kvStore s p j d.hr k v)
    match step with
    | .error k => (s, fl, some (k, i))
    | .ok (s, g) => appendTokens part n d f (i + 1) (pos + 1) s (fl ||| g) r

/-- KVAPP at the cellar: a cause comes with the token it stopped at. Of several causes that hold the item records the first in this order:
DESIGN CHOICE (notes/assumptions/112.md). -/
def append (s : State) (part n : Nat) (d : AppendDesc) (tokens : Nat → Option (List Token)) :
    State × FlagSet × Option (Nat × Nat) :=
  match pageFmt d.fmt with
  | none => (s, 0#8, some (0x120, 0))
  | some f =>
    if !d.ok then (s, 0#8, some (0x120, 0))
    else if !slotOwned s part n d.slot then (s, 0#8, some (0x121, 0))
    else
      match tokens (2 ^ d.hgc) with
      | none => (s, 0#8, some (0x120, 0))
      | some l =>
        let (cl, tl) := lensOf s n d.slot
        if 1048576 < tl + l.length then (s, 0#8, some (0x122, 0))
        else
          match appendTokens part n d f 0 tl s 0#8 l with
          | (s, g, some k) => (s, g, some k)
          | (s, g, none) => (setLens s n d.slot cl (tl + l.length), g, none)

/-- A code rescaled by 2^−i (R331). -/
def recode (f : Fmt) (i q : Nat) : Nat × FlagSet :=
  match f with
  | .i8 =>
    let x := sextNat 8 q
    let (y, _, fl) := kvRound .i8 (decide (x < 0)) x.natAbs (-(i : Int))
    (y, fl)
  | f =>
    match unpack f q with
    | .fin neg m e => let (y, _, fl) := kvRound f neg m (e - i); (y, fl)
    | .nan _ => (canonNaN f, 0#8)
    | .inf _ => (q, 0#8)

/-- Rescale `n` codes from an address. -/
def recodeRun (p : Page) (i a : Nat) (s : State) (fl : FlagSet) : Nat → State × FlagSet
  | 0 => (s, fl)
  | n + 1 =>
    let (y, g) := recode p.fmt i (readNat s .pa a p.w)
    recodeRun p i (a + p.w) (writeNat s .pa a p.w y) (fl ||| g) n

/-- KVRSCL at the cellar (R331): the page's causes come before B's reserved bits: DESIGN CHOICE (notes/assumptions/112.md). -/
def rescale (s : State) (part n base b : Nat) : State × FlagSet × Option Nat :=
  match openPage s part n base with
  | .error k => (s, 0#8, some k)
  | .ok p =>
    let ik := b % 16
    let iv := b / 16 % 16
    if 256 ≤ b then (s, 0#8, some 0x120)
    else if p.fmt = .bf16 || !bitAt p.hdr 6 then (s, 0#8, none)
    else
      let e := fun v => field (p.scale v) 23 8
      if 254 < e false + ik ∨ 254 < e true + iv then (s, 0#8, some 0x127)
      else
        let (s, fl) := ((upFrom 0 64).filter fun j => !p.gap j).foldl (fun (a : State × FlagSet) j =>
          let (s, fl) := recodeRun p ik (p.slotAddr false j) a.1 a.2 (p.hg * 128)
          recodeRun p iv (p.slotAddr true j) s fl (p.hg * 128)) (s, 0#8)
        let h := setField (setField p.hdr 64 32 (p.scale false + ik * 2 ^ 23)) 96 32 (p.scale true + iv * 2 ^ 23)
        (putHeader s { p with hdr := setField (setField h 7 1 0) 32 16 0 }, fl, none)

end Sys2Proof.Machine
end

