-- ==== Sys2Proof/Machine/Kv.lean ====
section
/-! DEFINITION. Machine/Kv.lean: the KV, cellar, shuttle, notice and launch instructions of tm at issue, tm sending them
(R311 to R314, R341 to R347, R367), and the cellars' requests performed and completed. -/

namespace Sys2Proof.Machine

/-! ## Issue -/

def execKvapp (g : Guard) (d a b : Port) (cel : Bool) (s : State) : Host.Outcome State Fault Refusal :=
  issue (.kvapp g d a b cel) s fun s => tmIssue (.kvapp g d a b cel) 0 (s.ctx.val b) 0 (s.ctx.handle (hOf a)) 0 0 true s
def execKvappGap (g : Guard) (d a b c : Port) (cel : Bool) (s : State) : Host.Outcome State Fault Refusal :=
  issue (.kvappGap g d a b c cel) s fun s =>
    tmIssue (.kvappGap g d a b c cel) (s.ctx.val a) (s.ctx.val b) (s.ctx.val c) 0 0 0 true s
def execKvcomAcc (g : Guard) (d a b : Port) (cel : Bool) (s : State) : Host.Outcome State Fault Refusal :=
  issue (.kvcomAcc g d a b cel) s fun s => tmIssue (.kvcomAcc g d a b cel) (s.ctx.val a) (s.ctx.val b) 0 0 0 0 true s
def execKvcomSet (g : Guard) (d a b : Port) (cel : Bool) (s : State) : Host.Outcome State Fault Refusal :=
  issue (.kvcomSet g d a b cel) s fun s => tmIssue (.kvcomSet g d a b cel) (s.ctx.val a) (s.ctx.val b) 0 0 0 0 true s
def execKvtent (g : Guard) (e : Bool) (d a : Port) (cel : Bool) (s : State) : Host.Outcome State Fault Refusal :=
  issue (.kvtent g e d a cel) s fun s => tmIssue (.kvtent g e d a cel) (s.ctx.val a) 0 0 0 0 0 true s
def execKvroll (g : Guard) (d a : Port) (cel : Bool) (s : State) : Host.Outcome State Fault Refusal :=
  issue (.kvroll g d a cel) s fun s => tmIssue (.kvroll g d a cel) (s.ctx.val a) 0 0 0 0 0 true s
def execKvrscl (g : Guard) (d a b : Port) (cel : Bool) (s : State) : Host.Outcome State Fault Refusal :=
  issue (.kvrscl g d a b cel) s fun s => tmIssue (.kvrscl g d a b cel) (s.ctx.val a) (s.ctx.val b) 0 0 0 0 true s
def execKvfill (g : Guard) (d a b c : Port) (cel : Bool) (s : State) : Host.Outcome State Fault Refusal :=
  issue (.kvfill g d a b c cel) s fun s =>
    tmIssue (.kvfill g d a b c cel) (s.ctx.val a) (s.ctx.val b) (s.ctx.val c) 0 0 0 true s
def execAttn (g : Guard) (d a b c : Port) (cel : Bool) (s : State) : Host.Outcome State Fault Refusal :=
  issue (.attn g d a b c cel) s fun s =>
    tmIssue (.attn g d a b c cel) 0 (s.ctx.val b) (s.ctx.val c) (s.ctx.handle (hOf a)) 0 0 true s

/-- SHSEND at issue: the lane counts it, gives up a permit and records Q (R342). -/
def Lane.send (l : Lane) (q : Nat) : Lane := { l with out := l.out + 1, held := l.held - 1, sizes := l.sizes ++ [q] }
/-- SHRECV at issue (R343). -/
def Lane.recv (l : Lane) : Lane := { l with out := l.out - 1, pend := l.pend + 1 }

def execShsend (g : Guard) (d a b : Port) (cel : Bool) (s : State) : Host.Outcome State Fault Refusal :=
  issue (.shsend g d a b cel) s fun s =>
    let h := s.ctx.handle (hOf a)
    let s := tmIssue (.shsend g d a b cel) 0 (s.ctx.val b) 0 h 0 0 true s
    s.modMyCtx fun x => x.modLane cel fun l => l.send (Handle.size h 1)
def execShrecv (g : Guard) (d a : Port) (cel : Bool) (s : State) : Host.Outcome State Fault Refusal :=
  issue (.shrecv g d a cel) s fun s =>
    let s := tmIssue (.shrecv g d a cel) (s.ctx.val a) 0 0 0 0 0 true s
    s.modMyCtx fun x => x.modLane cel Lane.recv
def execExitn (g : Guard) (d a b : Port) (s : State) : Host.Outcome State Fault Refusal :=
  issue (.exitn g d a b) s fun s => tmIssue (.exitn g d a b) (s.ctx.val a) (s.ctx.val b) 0 0 0 0 true s
def execOpbpostArm (g : Guard) (d a b : Port) (cnt : Bool) (s : State) : Host.Outcome State Fault Refusal :=
  issue (.opbpostArm g d a b cnt) s fun s => tmIssue (.opbpostArm g d a b cnt) (s.ctx.val a) (s.ctx.val b) 0 0 0 0 true s
def execOpbpostDec (g : Guard) (d a b : Port) (s : State) : Host.Outcome State Fault Refusal :=
  issue (.opbpostDec g d a b) s fun s => tmIssue (.opbpostDec g d a b) (s.ctx.val a) (s.ctx.val b) 0 0 0 0 true s

/-! ## tm sends (R312) -/

/-- A query row as its direction and norm, by DFROM's rule (R328, R178). -/
def queryPair (s : State) (o : Op) (r : Nat) : Pair :=
  let (sp, a) := rowPlace o o.ha r
  let w := Handle.width o.ha / 8
  let f := if w = 2 then Fmt.bf16 else .f32
  dfromOf ((upFrom 0 128).map fun i => unpack f (readNat s sp (a + i * w) w))

/-- The bytes a converted query row travels as: lanes, then norm. -/
def pairBytes (p : Pair) : List Byte := leBytes (packDir p.d).toNat 256 ++ leBytes p.n 4
def pairOf (l : List Byte) : Pair := ⟨dirLanes (BitVec.ofNat 2048 (bytesAt l 0 256)), bytesAt l 256 4, 0#8⟩

/-- Q attention entries, then Q converted rows, with the flags of the conversions. -/
def queryData (s : State) (o : Op) : List Byte × FlagSet :=
  let n := Handle.size o.ha 1
  let ps := (upFrom 0 n).map (queryPair s o)
  (readBytes s (.core o.core) o.b.toNat (32 * n) ++ ps.flatMap pairBytes, ps.foldl (fun f p => f ||| p.f) 0#8)

/-- What tm reads from core scratchpad when it takes a request. -/
def requestData (s : State) (o : Op) : List Byte × FlagSet :=
  let c := o.core
  match o.ins with
  | .kvapp .. =>
    (readBytes s (.core c) o.b.toNat 32 ++ (upFrom 0 (Handle.size o.ha 1)).flatMap fun r => readRow s o o.ha r, 0#8)
  | .kvappGap .. => (readBytes s (.core c) o.b.toNat 32 ++ readBytes s (.core c) o.a.toNat (8 * o.c.toNat), 0#8)
  | .kvfill .. => (readBytes s (.core c) o.a.toNat 24, 0#8)
  | .attn .. | .shsend .. => queryData s o
  | .exitn .. => (readBytes s (.core c) o.a.toNat 64, 0#8)
  | _ => ([], 0#8)

/-- Requests of a C-die that a cellar has accepted (R312). -/
def acceptedFrom (s : State) (n d : Nat) : Nat := ((s.cellar n).reqs.filter fun o => dieOf o.core == d).length

/-- Notices of a core on a binding that are not acknowledged (R346). -/
def unacked (s : State) (c b : Nat) : Nat := (s.notices.filter fun k => k.op.core == c && k.bind == b).length

/-- May tm send the request at its head now? -/
def tmSends (s : State) (o : Op) : Bool :=
  let x := s.core o.core
  match o.ins with
  | .exitn .. => (x.mode == .u || x.saving) && !storesDue x o.id && decide (unacked s o.core o.b.toNat < 4)
  | .opbpostArm .. | .opbpostDec .. => (x.mode == .u || x.saving) && decide ((s.part o.part).intake.length < 256)
  | .shsend .. => x.tmGoes o && (settled s o).isSome
  | .shrecv .. => x.tmGoes o
  | _ => x.tmGoes o && decide (acceptedFrom s (cellarOf o) (dieOf o.core) < 64)

/-- tm takes the request at its head, reads its operands and sends it (R312). A notice carries the die's clock (R254). What a rerun repeats is
not sent again. -/
def tmSend (s : State) (c : Nat) : State :=
  match (s.core c).tm with
  | [] => s
  | o :: r =>
    if isRowInstr o.ins || !tmSends s o then s else
    let (data, f) := requestData s o
    let dry := o.orig.isSome
    let s := s.modCore c fun x => { x with tm := r }
    let s := deliverFlags s c o.ctag o.id f (slotMask 6)
    let o := { o with data := data, phase := if dry then .performed else .started }
    match o.ins with
    | .shsend .. =>
      let s := match flagOf o.ins with
        | some k => if leftToRerun s o then s else sendIncr s (dieOf c) c o.ctag k 1 c o.id false
        | none => s
      if dry then (let o := (settled s o).getD o; dropOutstanding (raiseOp s o) o) else s.modCellar (cellarOf o) fun k => { k with batches := k.batches ++ [⟨o, celOf o.ins, [], false⟩] }
    | .shrecv .. => s.modCore c fun x => { x with recv := x.recv ++ [o] }
    | .exitn .. =>
      let (m, d, _, q) := (s.part o.part).binding o.b.toNat
      let o := { o with data := clockBytes (s.die (dieOf c)).vc }
      { s with notices := s.notices ++ [⟨o, o.b.toNat, m, d, q, data, if dry then .performed else .queued⟩] }
    | .opbpostArm _ _ _ _ cnt =>
      s.modPart o.part fun p =>
        { p with intake := p.intake ++ [⟨o.a.toNat, false, if cnt then some (bvField o.b 0 16) else none, some o⟩] }
    | .opbpostDec .. => s.modPart o.part fun p => { p with intake := p.intake ++ [⟨o.a.toNat, true, some o.b.toNat, some o⟩] }
    | _ => s.modCellar (cellarOf o) fun k => { k with reqs := k.reqs ++ [o] }

def execTmRequestSend (c : Nat) (s : State) : Host.Outcome State Fault Refusal := event s fun s => tmSend s c

/-! ## Performing a request (R313, R321, R322, R327, R330, R331) -/

/-- The sequence slots a request names. -/
def slotsOf (o : Op) : List Nat :=
  match o.ins with
  | .kvapp .. | .kvappGap .. => [bytesAt o.data 8 2]
  | .kvcomAcc .. | .kvcomSet .. | .kvtent .. | .kvroll .. => [bvField o.a 0 12]
  | .kvfill .. => [bytesAt o.data 20 2]
  | .attn .. | .shsend .. => (upFrom 0 (Handle.size o.ha 1)).map fun q => bytesAt o.data (32 * q + 20) 2
  | _ => []

/-- Data tokens of a KVAPP, if its rows hold 256 elements a head (R321). -/
def dataTokens (o : Op) (hg : Nat) : Option (List Token) :=
  let n := Handle.size o.ha 0
  if n ≠ 256 * hg then none else
    let w := Handle.width o.ha / 8
    let f := if w = 2 then Fmt.bf16 else .f32
    let body := o.data.drop 32
    some ((upFrom 0 (Handle.size o.ha 1)).map fun t =>
      let v := (upFrom 0 n).map fun i => unpack f (bytesAt body ((t * n + i) * w) w)
      .data (v.take (128 * hg)) (v.drop (128 * hg)))

/-- Record tokens of a KVAPP.gap. -/
def gapTokens (o : Op) : List Token := (upFrom 0 o.c.toNat).map fun t => .gap (bytesAt o.data (32 + 8 * t) 8)

/-- A length instruction: its slot checked, then its change or its cause (R322). -/
def lengthOp (s : State) (n : Nat) (o : Op) : State × Option Nat × Word :=
  let slot := bvField o.a 0 12
  if bvField o.a 12 52 ≠ 0 ∨ !slotOwned s o.part n slot then (s, some 0x121, 0) else
    let (cl, tl) := lensOf s n slot
    match o.ins with
    | .kvcomAcc .. => if tl < cl + o.b.toNat then (s, some 0x122, 0) else (setLens s n slot (cl + o.b.toNat) tl, none, 0)
    | .kvcomSet .. => if 1048576 < o.b.toNat then (s, some 0x122, 0) else (setLens s n slot o.b.toNat o.b.toNat, none, 0)
    | .kvroll .. => (setLens s n slot cl cl, none, 0)
    | _ => (s, none, BitVec.ofNat 64 (tl * 2 ^ 32 + cl))

/-- The query rows of an ATTN from the `q`-th: failed rows are recorded, results land in core scratchpad (R329, R330). -/
def attnRows (o : Op) (n q : Nat) (s : State) (fl : FlagSet) (fails : Nat) : Nat → State × FlagSet × Nat
  | 0 => (s, fl, fails)
  | k + 1 =>
    let total := Handle.size o.ha 1
    let (s, f, r) := attnRow s o.part n ((o.data.drop (32 * q)).take 32) (pairOf (o.data.drop (32 * total + 260 * q)))
    match r with
    | .error c => attnRows o n (q + 1) (failItem s o c 0 q) (fl ||| f) (fails + 1) k
    | .ok bytes => attnRows o n (q + 1) (opWrite s o true (.core o.core) (o.c.toNat + 1024 * q) bytes) (fl ||| f) fails k

/-- Perform a request whole. -/
def performRequest (s : State) (n : Nat) (o : Op) : State × Op :=
  let oneAt := fun (r : State × FlagSet × Option (Nat × Nat)) =>
    match r with
    | (s, f, some (k, i)) => (failItem s o k 0 i, { o with phase := .performed, afl := o.afl ||| f, fails := 1 })
    | (s, f, none) => (s, { o with phase := .performed, afl := o.afl ||| f })
  let one := fun (r : State × FlagSet × Option Nat) => oneAt (r.1, r.2.1, r.2.2.map fun k => (k, 0))
  match o.ins with
  | .kvapp .. => oneAt (append s o.part n (AppendDesc.of o.data) (dataTokens o))
  | .kvappGap .. => oneAt (append s o.part n (AppendDesc.of o.data) fun _ => some (gapTokens o))
  | .kvrscl .. => one (rescale s o.part n o.a.toNat o.b.toNat)
  | .kvfill .. =>
    let slot := bytesAt o.data 20 2
    if 4095 < slot ∨ 7 < bytesAt o.data 22 1 ∨ bytesAt o.data 23 1 ≠ 0 then one (s, 0#8, some 0x120)
    else if !slotOwned s o.part n slot then one (s, 0#8, some 0x121)
    else if (lensOf s n slot).2 < o.b.toNat + o.c.toNat then one (s, 0#8, some 0x122)
    else one (darnRange o.part n (bytesAt o.data 0 8) (bytesAt o.data 8 8) s 0#8 (upFrom o.b.toNat o.c.toNat))
  | .attn .. =>
    let (s, f, k) := attnRows o n 0 s 0#8 0 (Handle.size o.ha 1)
    (s, { o with phase := .performed, afl := o.afl ||| f, fails := k })
  | _ =>
    let (s, k, v) := lengthOp s n o
    let (s, o) := one (s, 0#8, k)
    (s, { o with val := v })

/-- No earlier request, and no earlier micro-batch of the same core, names one of these slots (R313). -/
def slotsClear (s : State) (n : Nat) (o : Op) (before : List Op) : Bool :=
  let k := s.cellar n
  let ahead := (before.filter fun p => p.phase != .performed) ++
    ((k.batches.filter fun b => !b.done && b.op.core == o.core && decide (b.op.id < o.id)).map (·.op))
  ahead.all fun p => (slotsOf p).all fun i => !(slotsOf o).contains i

/-- A request reaches its cellar, and what the cellar writes for it its core, when the clocks of the dies let it (R254). -/
def cellarLets (s : State) (n : Nat) (o : Op) : Bool :=
  let i := dieOf o.core
  let j := cellarDie n
  clockAllows s (s.die i).vc i j && clockAllows s (s.die j).vc j i

/-- What a repeated operation wrote into core scratchpad stays as the first run left it; a rerun's signature takes what lies there
(R403, R404). -/
def sigOwn (s : State) (o : Op) (a n : Nat) : State :=
  if o.orig.isSome then noteSig s o.core o.id (.core o.core) a (readBytes s (.core o.core) a n) else s

/-- A cellar performs its `r`-th request (R313). -/
def requestPerform (s : State) (n r : Nat) : State :=
  let k := s.cellar n
  match k.reqs[r]? with
  | none => s
  | some o =>
    if o.phase = .performed || !slotsClear s n o (k.reqs.take r) || !cellarLets s n o then s else
      let (s, o) := performRequest s n o
      s.modCellar n fun k => { k with reqs := replaceOp o k.reqs }

/-- A performed request completes (R314). -/
def requestComplete (s : State) (n r : Nat) : State :=
  match (s.cellar n).reqs[r]? with
  | none => s
  | some o =>
    if o.phase != .performed then s else
      match settled s o with
      | none => s
      | some o =>
        let s := s.modCellar n fun k => { k with reqs := removeOp o.id k.reqs }
        let s := match o.ins with
          | .attn .. => sigOwn s o o.c.toNat (1024 * Handle.size o.ha 1)
          | _ => s
        endOp (if o.fails = 0 && !(tmWrs o).isEmpty then tmLand s o (tmWrs o) else s) o

def execCellarRequestPerform (n r : Nat) (s : State) : Host.Outcome State Fault Refusal := event s fun s => requestPerform s n r
def execCellarRequestComplete (n r : Nat) (s : State) : Host.Outcome State Fault Refusal := event s fun s => requestComplete s n r

end Sys2Proof.Machine
end

