-- ==== Sys2Proof/Machine/Shuttle.lean ====
section
/-! DEFINITION. Machine/Shuttle.lean: micro-batches, permits and exit notices (R336 to R347). -/

namespace Sys2Proof.Machine

/-! ## Micro-batches (R342, R343) -/

/-- Rows of a micro-batch from the `q`-th: each leaves its triple in the buffer, or a failure record. -/
def batchRows (o : Op) (n q : Nat) (s : State) (fl : FlagSet) : Nat → State × FlagSet × List (Option (List Byte))
  | 0 => (s, fl, [])
  | k + 1 =>
    let total := Handle.size o.ha 1
    let (s, f, r) := attnRow s o.part n ((o.data.drop (32 * q)).take 32) (pairOf (o.data.drop (32 * total + 260 * q)))
    match r with
    | .error c =>
      let (s, g, l) := batchRows o n (q + 1) (failItem s o c 0 q) (fl ||| f) k
      (s, g, none :: l)
    | .ok bytes =>
      let (s, g, l) := batchRows o n (q + 1) s (fl ||| f) k
      (s, g, some bytes :: l)

/-- The cellar performs a micro-batch into its reserved buffer; its SHSEND has then completed, once its flag's increment has been
applied (R271, R342). -/
def batchPerform (s : State) (n r : Nat) : State :=
  let k := s.cellar n
  match k.batches[r]? with
  | none => s
  | some b =>
    let ahead := k.reqs.filter fun p => p.core == b.op.core && decide (p.id < b.op.id)
    if b.done || !slotsClear s n b.op ahead || !cellarLets s n b.op || !incrsDone s b.op then s else
      let (s, f, rows) := batchRows b.op n 0 s 0#8 (Handle.size b.op.ha 1)
      let s := s.modCellar n fun k => { k with batches := k.batches.map fun e => if e.op.id = b.op.id then { e with rows := rows, done := true } else e }
      let o := { b.op with afl := f }
      dropOutstanding (raiseOp (onceDone s o) o) o

/-- The oldest SHRECV of a lane. -/
def oldestRecv (x : Core) (hi : Bool) : Option Op := x.recv.find? fun o => celOf o.ins == hi

/-- Write the triples of a micro-batch; a failed row's area is left (R343). -/
def writeTriples (s : State) (o : Op) (a : Nat) : List (Option (List Byte)) → State
  | [] => s
  | none :: r => writeTriples s o (a + 1024) r
  | some l :: r => writeTriples (opWrite s o true (.core o.core) a l) o (a + 1024) r

/-- A delivery ends: the permit is granted again, PEND falls, and the SHRECV ends (R343). After a rollback the lane of one issued before
it is left to its repetition (R344). -/
def deliverEnd (s : State) (c : Nat) (hi : Bool) (o : Op) : State :=
  let s := s.modCore c fun x => { x with recv := removeOp o.id x.recv }
  let s := if leftToRerun s o then s else s.modCtxFor c o.id fun y => y.modLane hi fun l =>
    { l with pend := l.pend - 1, grants := l.grants + 1, sizes := l.sizes.tail }
  endOp s o

/-- The cellar delivers the oldest micro-batch of a lane to its oldest SHRECV. -/
def batchDeliver (s : State) (c : Nat) (hi : Bool) : State :=
  match oldestRecv (s.core c) hi with
  | none => s
  | some o =>
    if o.orig.isSome then
      match settled s o with
      | some o => deliverEnd (sigOwn s o o.a.toNat (1024 * (((s.core c).ctx.lane hi).sizes.headD 0))) c hi o
      | none => s
    else
      let n := cellarOf o
      match (s.cellar n).batches.find? fun b => b.op.core == c && b.hi == hi with
      | none => s
      | some b =>
        if !b.done || !cellarLets s n o then s else
          let s := writeTriples s o o.a.toNat b.rows
          let s := s.modCellar n fun k => { k with batches := k.batches.filter fun e => e.op.id != b.op.id }
          deliverEnd s c hi { o with fails := if b.rows.contains none then 1 else 0 }

/-- A granted permit reaches the core (R337). -/
def permitGrant (s : State) (c : Nat) (hi : Bool) : State :=
  s.modCtx c fun x => x.modLane hi fun l => if l.grants = 0 then l else { l with grants := l.grants - 1, held := l.held + 1 }

/-! ## Exit notices (R345 to R347) -/

/-- An earlier notice of the same core on the same binding has not been appended yet (R347). -/
def noticeBehind (s : State) (n : Nat) (k : Notice) : Bool :=
  (s.notices.take n).any fun e => e.op.core == k.op.core && e.bind == k.bind && e.phase == .queued

/-- The name of a notice's target queue. -/
def Notice.name (k : Notice) : Nat := k.die * 256 + k.hq % 256

/-- Where a notice for this module is appended; a queue that is not a valid queue of the notice lane has no such place (R346, R376). -/
def noticePlace (s : State) (k : Notice) : Option Nat :=
  let h := s.hatchOf k.name
  if h.cfg.getLsbD 63 && h.cfg.getLsbD 62 && decide (k.hq < 256) then hatchPlace s k.name (h.line h.tail) else none

/-- The clock that a notice carries lets its target's die take it in (R254). -/
def noticeLets (s : State) (k : Notice) : Bool :=
  k.die == dieOf k.op.core || clockAllows s (clockOf k.op.data) (dieOf k.op.core) k.die

/-- A notice for this module is appended to its target queue, whose consumer's flag rises; a full queue keeps it at the
ingress (R254, R346, R377). -/
def noticeAppend (s : State) (n : Nat) : State :=
  match s.notices[n]? with
  | none => s
  | some k =>
    let h := s.hatchOf k.name
    if k.phase != .queued || k.mod != s.modno || noticeBehind s n k || h.full || !noticeLets s k then s
    else
      match noticePlace s k with
      | none => s
      | some a =>
        let s := (writeBytes s (.die k.die) a k.bytes).setHatch k.name h.push
        let s := sendIncr s k.die (bvField h.bnd 40 8) (h.bnd.extractLsb' 48 16) (bvField h.bnd 35 5) 1 k.op.core k.op.id false (free := true)
        { s with notices := s.notices.set n { k with phase := .performed } }

/-- The acknowledgement of an appended notice returns: the EXITN completes. A notice to another module is acknowledged from
there (R346). -/
def noticeAck (s : State) (n : Nat) : State :=
  match s.notices[n]? with
  | none => s
  | some k =>
    if (k.mod == s.modno && k.phase != .performed) || noticeBehind s n k then s else
      match settled s k.op with
      | none => s
      | some o => endOp { s with notices := s.notices.eraseIdx n } o

/-- The partition that holds a queue's ring is gone, or being torn down. -/
def tornDown (s : State) (name : Nat) : Bool :=
  let p := hatchOwner s name
  decide (8 ≤ p) || (s.part p).tear || !(s.part p).set

/-- Can a notice fail? Its target is another module, which may be unreachable; or in this module there is no place for it, or its
queue is full and torn down (R14, R346). -/
def noticeLost (s : State) (k : Notice) : Bool :=
  k.mod != s.modno || (noticePlace s k).isNone || ((s.hatchOf k.name).full && tornDown s k.name)

/-- The target is unreachable, or torn down with a full queue: the item fails with cause 0x147 (R346). -/
def noticeFail (s : State) (n : Nat) : State :=
  match s.notices[n]? with
  | none => s
  | some k =>
    if k.phase != .queued || !noticeLost s k then s else
      failOp { s with notices := s.notices.eraseIdx n } k.op 0x147 0 0

def execMicroBatchPerform (n r : Nat) (s : State) : Host.Outcome State Fault Refusal := event s fun s => batchPerform s n r
def execMicroBatchDeliver (c : Nat) (hi : Bool) (s : State) : Host.Outcome State Fault Refusal := event s fun s => batchDeliver s c hi
def execPermitGrant (c : Nat) (hi : Bool) (s : State) : Host.Outcome State Fault Refusal := event s fun s => permitGrant s c hi
def execShstWrite (c : Nat) (v : Word) (s : State) : Host.Outcome State Fault Refusal := event s fun s => sysWrite s c 24 v
def execNoticeAppend (n : Nat) (s : State) : Host.Outcome State Fault Refusal := event s fun s => noticeAppend s n
def execExitnAck (n : Nat) (s : State) : Host.Outcome State Fault Refusal := event s fun s => noticeAck s n
def execNoticeTargetUnreachable (n : Nat) (s : State) : Host.Outcome State Fault Refusal := event s fun s => noticeFail s n

end Sys2Proof.Machine
end

