-- ==== Sys2Proof/Machine/Stash.lean ====
section
/-! DEFINITION. Machine/Stash.lean: the stash traffic of MSTASH and MUNST (R213, R214, R243). -/

namespace Sys2Proof.Machine

/-- The uncorrectable error met in the 256 bytes from a byte: its cause and offset (R241, R400). -/
def Op.errRow (o : Op) (n : Nat) : Option (Nat × Nat) :=
  o.err.bind fun e => if n ≤ e.1 ∧ e.1 < n + 256 then some (e.2, e.1) else none

/-- Write stash rows to HBM until a translation fails: the state, and the cause and byte offset of the failure. -/
def stashWrite (op : Op) : List Nat → List Byte → Nat → State → Moved
  | [], _, _, s => ⟨s, none⟩
  | m :: r, data, n, s =>
    let va := op.stashVa m
    match op.errRow n, xlate s op.core op.part va true with
    | some e, _ => ⟨s, some e⟩
    | none, .ok pa .. => stashWrite op r (data.drop 256) (n + 256) (opWrite (s.useRange op.core op.part va) op true .pa pa (data.take 256))
    | none, .bad k => ⟨s, some (k, n)⟩

/-- The clocks of the dies of its rows let an MSTASH's writes through, and every earlier access of the core is performed (R249, R254). -/
def stashLets (s : State) (op : Op) : Bool :=
  performedBefore s op.core op.id &&
    (maskRows op.f).all fun m => match xlate s op.core op.part (op.stashVa m) true with
      | .ok pa .. => clockLets s (dieOf op.core) .pa pa
      | .bad _ => true

/-- The HBM writes of the oldest MSTASH complete (R214). -/
def stashComplete (s : State) (c : Nat) : State :=
  match oldestStash (s.core c) false with
  | none => s
  | some o =>
    match settled s o with
    | none => s
    | some o =>
    if !stashLets s o then s else
    let m := stashWrite o (maskRows o.f) o.data 0 s
    let s := m.st.modCore c fun x => { x with stash := removeOp o.id x.stash }
    match m.fail with
    | some (k, ofs) => failOp s o k ofs 0
    | none => endOp s o

/-- Rows read back from HBM, or a failure. -/
def unstRead (s : State) (op : Op) : List Nat → Nat → Except (Nat × Nat) (Map Row)
  | [], _ => .ok []
  | m :: r, n =>
    match op.errRow n, xlate s op.core op.part (op.stashVa m) false with
    | some e, _ => .error e
    | none, .bad k => .error (k, n)
    | none, .ok pa .. =>
      match unstRead (s.useRange op.core op.part (op.stashVa m)) op r (n + 256) with
      | .error e => .error e
      | .ok l => .ok ((m, BitVec.ofNat 2048 (readNat s .pa pa 256)) :: l)

/-- The rows of the oldest MUNST land once the array is idle, and become resident; its flag follows (R214). It reads nothing before a
fence issued before it has completed (E2 of R249), nor before an earlier read of the same bytes (R252). -/
def unstLand (s : State) (c : Nat) : State :=
  let x := s.core c
  match x.mx, oldestStash x true with
  | none, some o =>
    if fencedBefore x o || !readsInOrder s o then s else
    let s := s.modCore c fun x => { x with stash := removeOp o.id x.stash }
    let read := unstRead s o (maskRows o.f) 0
    let s := (maskRows o.f).foldl (fun s m => s.useRange o.core o.part (o.stashVa m)) s
    match read with
    | .error (k, ofs) => failOp s o k ofs 0
    | .ok rows =>
      let t := match o.ins with
        | .munst _ _ a _ _ => tOf a
        | _ => 0
      let s := s.modCtxFor c o.id fun x => (x.landRows o t rows).modTile t fun y => { y with resid := y.resid ||| o.f }
      completeOp s o
  | _, _ => s

def execMunstRowsLand (c : Nat) (s : State) : Host.Outcome State Fault Refusal := event s fun s => unstLand s c
def execMstashWritesComplete (c : Nat) (s : State) : Host.Outcome State Fault Refusal := event s fun s => stashComplete s c

end Sys2Proof.Machine
end

