-- ==== Sys2Proof/Machine/Cycle.lean ====
section
/-! DEFINITION. Machine/Cycle.lean: what one core does in one clock: report points, empty cycles, the groups of its bundles,
YIELD, the drain; and placing a bundle where the next step fetches it (R31, R32, R34, R54, R112, R374, R384, R390, R412). -/

namespace Sys2Proof.Machine

/-! ## Engines while a core waits -/

/-- An array cycle has ended (R198, R199): an operation that has had all its array cycles retires. -/
def mxEnd (s : State) (c : Nat) : State := mstepEnd (mxRetire s c) c

/-- Every event of the core's engines that is due, once each in a fixed order: what a core that waits lets happen when the
agenda names nothing (notes/assumptions/5.md). -/
def engineRound (s : State) (c : Nat) : State :=
  let s := barDrain (traceWrite (fenceComplete (atomComplete (atomPerform s c) c) c) c) s.bar.length
  let s := stashComplete (unstLand s c) c
  let s := transferStart (transferStart s c false) c true
  let s := (upFrom 0 16).foldl (fun s b => ((((s.core c).ctx.bobbin b).slots.filter fun e => e.2 == .reserved).map (·.1)).foldl
    (fun s n => fillLanded s c b n) s) s
  let s := transferComplete (transferComplete s c false) c true
  let s := (upFrom 0 16).foldl (fun s b => storeSlotPop s c b) s
  let s := hqMove (itemComplete (engineWaitEnd (copyTake s c) c) c) c
  let s := tmSend (rowComplete (rowStart s c) c) c
  let s := (upFrom 0 8).foldl (fun s n => batchPerform (requestComplete (requestPerform s n 0) n 0) n 0) s
  let s := batchDeliver (batchDeliver (permitGrant (permitGrant s c false) c true) c false) c true
  let s := incrNext (postSend s c)
  contextResume ((upFrom 0 12).foldl (fun s j => markerApply s j 0) s) c

/-! ## The end of a cycle -/

/-- Where YIELD's bundle has ended (R374, R393): with no delay slot due and nothing in flight, the context is pre-empted if its mask
is nonzero or a ready task before it cannot be placed. Its result is then 1, else the 0 that has just landed. It lands at once where both
lanes are clear, else at the next landing point (R344); a lower cause due at a report point comes before it (R384). -/
def yieldEnd (s : State) (c : Nat) : State :=
  let x := s.core c
  match x.yielding with
  | none => s
  | some (d, e, mask) =>
    if x.ctx.seq.grp ≠ 0 || x.reportBelow 0x179 then s else
    let s := s.modCore c fun x => { x with yielding := none }
    if !x.quiescent || !(mask != 0#32 || unplacedBefore s x.part x.task) then s
    else
      let f : Flight := ⟨s.nextId, 0, .sy, 7, 0#8, destWrs .sy e d 1⟩
      let s := f.wrs.foldl (landWr c f) s
      let s := s.modCore c fun x => { x with yieldHeld := some mask }
      if x.ctx.lanesClear then landPreemption s c yieldCause else s

/-- A cycle has ended: the lowest of the causes raised in it freezes the core, unless a lower one has come due at a report point; the
others and a pre-emption due at the same edge are held (R384). Without a cause a pre-emption lands, unless a lower cause is due at a report
point, or the next cycle begins with what lands in it. -/
def cycleEnd (s : State) (c : Nat) : State :=
  if (s.core c).act != .running then s
  else
    let s := mxEnd s c
    let x := s.core c
    match lowestHeld x.due, x.landingDue with
    | some h, land =>
      let s := match land with
        | some p => s.modCore c fun x => x.holdLanding p
        | none => s
      if x.reportBelow h.cause then takeReport s c
      else freeze s c h true (if x.mode = .u then x.ctx.scyc - 1 else x.ctx.scyc)
    | none, some p => landOrHold s c p
    | none, none => yieldEnd (settleLanded s (landCycle s c) c) c

/-- A cycle in which no group issues. -/
def emptyCycle (s : State) (c : Nat) : State := cycleEnd ((mxStart s c).modCore c Core.tick) c

/-- A clock in which the core is held: the array and the engines go on (R34, R198). -/
def holdCycle (s : State) (c reason : Nat) (l : List Instr) : State :=
  engineRound (mxEnd (holdGroup (mxStart s c) c reason l) c) c

/-- One of a NOP's empty cycles, unless the array stalls the core (R54, R195). -/
def nopCycle (s : State) (c : Nat) : State :=
  match mxStall (s.core c) with
  | r :: _ => holdCycle s c r []
  | [] => emptyCycle ((release s c []).modCtx c fun y => { y with nops := y.nops - 1 }) c

/-- A rerun's interval has come to its end but for operations still to be performed: the array and the engines go on, and no group issues
(R403). -/
def intervalWait (s : State) (c : Nat) : State := engineRound (mxEnd ((mxStart s c).modCore c Core.clock) c) c

/-- The end that a rerun has come to, taken once the interval's operations have been performed. -/
def intervalGoes (s : State) (c : Nat) (e : Held × Bool × Word) : State :=
  if intervalOpen s c then intervalWait s c
  else endInterval (s.modCore c fun x => { x with ckpt := x.ckpt.map fun k => { k with ending := none } }) c e.1 e.2.1 e.2.2

/-! ## Groups -/

/-- The instructions of a group, one after another by slot position. -/
def runSlots (ex : Instr → State → Host.Outcome State Fault Refusal) : List Instr → State → Host.Outcome State Fault Refusal
  | [], s => .next s
  | i :: r, s =>
    match ex i s with
    | .next t => runSlots ex r t
    | o => o

/-- Does the group hold a CKPT that acts? -/
def holdsCkpt (x : Core) (l : List Instr) : Bool :=
  l.any fun i => match i with
    | .ckpt g _ _ => x.ctx.guard g && ckptActs x
    | _ => false

/-- A group whose checks have passed issues: its slots act, and its cycle ends. -/
def issueGroup (ex : Instr → State → Host.Outcome State Fault Refusal) (s : State) (c : Nat) : Host.Outcome State Fault Refusal :=
  let (l, last) := nextGroup s c
  let xfer := (groupsAt s c).flatten.any isTransfer
  let s := release (mxStart s c) c l
  match runSlots ex l (s.modCore c fun x => { x with committing := true }) with
  | .next t => .next (cycleEnd (t.modCore c fun x => { (x.endCycle last xfer) with committing := false, hold := none }) c)
  | o => o

/-- What a running core does at the issue of its next group. -/
def groupStep (ex : Instr → State → Host.Outcome State Fault Refusal) (s : State) (c : Nat) : Host.Outcome State Fault Refusal :=
  let s := fetchBundle s c
  match fetchVerdict s c with
  | .trap h => .next (freeze s c h false (s.core c).ctx.scyc)
  | .hold r => .next (holdCycle s c r (nextGroup s c).1)
  | .go =>
    if (s.core c).rerunning && holdsCkpt (s.core c) (nextGroup s c).1 then
      .next (if intervalOpen s c then intervalWait s c else intervalEnd s c none)
    else issueGroup ex s c

/-! ## One core, one clock -/

/-- What a running core does next. -/
def runStep (ex : Instr → State → Host.Outcome State Fault Refusal) (s : State) (c : Nat) : Host.Outcome State Fault Refusal :=
  let x := s.core c
  match x.ending with
  | some e => .next (intervalGoes s c e)
  | none =>
  if x.reportDue.isSome then .next (if intervalOpen s c then intervalWait s c else takeReport s c)
  else if x.yielding.isSome && x.mode == .u && x.ctx.seq.grp == 0 then .next (yieldEnd s c)
  else if breakpointHit x 0 then .next (breakpointFire s c 0)
  else if breakpointHit x 1 then .next (breakpointFire s c 1)
  else if x.eretReq then
    .next (if x.ctx.flights.isEmpty && x.due.isEmpty then eretEnd (engineRound s c) c else emptyCycle s c)
  else if x.ctx.nops ≠ 0 then .next (nopCycle s c)
  else if x.ctx.seq.halt then .next (if x.drained then coreRelease s c else engineRound (emptyCycle s c) c)
  else groupStep ex s c

/-- What a core does next; one that has stopped still has its trace records written and its record appended (R414, R434). -/
def coreStep (ex : Instr → State → Host.Outcome State Fault Refusal) (s : State) (c : Nat) : Host.Outcome State Fault Refusal :=
  match (s.core c).act with
  | .starting => .next (stepStart s c)
  | .recording => .next (ringAdvance s (s.core c).part)
  | .running => runStep ex s c
  | .stopped | .retired => .next (ringAdvance (traceWrite s c) (s.core c).part)
  | .free => .next s

/-! ## The next thing that happens -/

/-- Does an event go on after the module has stopped at 110 °C (R436)? -/
def worksHot : Instr → Bool
  | .moduleReset _ => true
  | .powerRemoval => true
  | _ => false

/-- The head of the agenda acts, or with none the core in focus (notes/assumptions/5.md). -/
def act' (ex : Instr → State → Host.Outcome State Fault Refusal) (s : State) : Host.Outcome State Fault Refusal :=
  match s.agenda with
  | [] => if s.status.hot then .next s else coreStep ex s s.cur
  | .ev i :: r =>
    if s.status.hot && !worksHot i then .next { s with agenda := r } else ex i { s with agenda := r }
  | .run c :: r =>
    if s.status.hot then .next { s with agenda := r } else coreStep ex { s with agenda := r, cur := c } c

/-- One step of the module: nothing runs without power but a start. -/
def moduleStep (ex : Instr → State → Host.Outcome State Fault Refusal) (s : State) : Host.Outcome State Fault Refusal :=
  if s.power || (match s.agenda with | .ev (.moduleReset _) :: _ => true | _ => false) then act' ex s else .fault .noPower

/-! ## Placing a bundle -/

/-- Set the stop bit of a bundle's last slot that is not a canonical no-operation. -/
def closeFrom (w : BundleWord) : Nat → BundleWord
  | 0 => w
  | n + 1 => match decodeSlot n (slotOf w n) with
    | .nop => closeFrom w n
    | _ => w ||| ((1 : BundleWord) <<< (64 * n + 63))

/-- The core is about to run a bundle placed at store address 0, in U mode, as the module's next step; the refresh of bank 0
in schedule cycle 0 (R115) is over. -/
def State.withBundle (s : State) (w : BundleWord) : State :=
  let s := { s with power := true, cur := 0, agenda := [], status := { s.status with hot := false } }
  let s := s.modCore 0 fun x =>
    { x with
      act := .running, mode := .u, hold := some ⟨0, 0⟩, committing := false, held := [], due := [], eretReq := false, yielding := none, frozenYield := none
      preReq := false, trace := { x.trace with on := false, tsb := 0 }, ckpt := none
      istag := vset x.istag 0 ⟨1, 1, 0, 2⟩, ctx := { x.ctx with seq := Seq.zero, nops := 0 } }
  writeBytes s (.store 0) 0 (leBytes w.toNat 64)

end Sys2Proof.Machine
end

