-- ==== Sys2Proof/Machine/Direction.lean ====
section
/-! DEFINITION. Machine/Direction.lean: the instructions of dv (R169 to R186). -/

namespace Sys2Proof.Machine

/-- Direction `j` and norm `j` (R169). -/
def Ctx.dirOf (x : Ctx) (p : Port) : Row := vget x.dirs (dOf p) 0
def Ctx.normOf (x : Ctx) (p : Port) : Nat := (vget x.norms (dOf p) 0).toNat
/-- A floating or norm source as binary32 bits (R177). -/
def Ctx.f32 (x : Ctx) (p : Port) : Nat := bvField (x.val p) 0 32

/-- A pair write: the norm lands in 2 cycles with the flags, the direction in 4 (R172). -/
def pairWrite (s : State) (d : Port) (p : Pair) : State :=
  let p := p.fit
  let s := s.launch .dv 4 2 p.f [.norm (dOf d) (BitVec.ofNat 32 p.n)]
  s.launch .dv 4 4 0#8 [.dir (dOf d) (packDir p.d)]

/-- A scalar result of dv, from 32 bits (R177). -/
def dvResult (s : State) (lat : Nat) (e : Bool) (d : Port) (y : LaneOut) : State :=
  s.result .dv 4 lat e d (BitVec.ofNat 64 y.1) y.2

/-- The lanes DFROM reads (R178). -/
def dfromLanes (x : Ctx) (a : Port) (rf : Nat) : List FV :=
  if x.tagOf a = .bf16 then (lanes (x.row (tOf a) rf) 16 128).map (unpack .bf16)
  else (lanes (x.row (tOf a) rf) 32 64 ++ lanes (x.row (tOf a) (rf + 1)) 32 64).map (unpack .f32)

def execDfrom (g : Guard) (d a : Port) (rf : BitVec 6) (s : State) : Host.Outcome State Fault Refusal :=
  issue (.dfrom g d a rf) s fun s => pairWrite s d (dfromOf (dfromLanes s.ctx a rf.toNat))

/-- One row of DTO, landing in 6 cycles with its flags (R179). -/
def dtoRow (s : State) (d : Port) (r w : Nat) (l : List LaneOut) : State :=
  s.launch .dv 4 6 (joinFlags l) [.row (tOf d) r (packRow w (l.map (·.1)))]

def execDto (g : Guard) (d a : Port) (fmt : Fmt) (rm : Rnd) (rf : BitVec 6) (s : State) : Host.Outcome State Fault Refusal :=
  issue (.dto g d a fmt rm rf) s fun s =>
    let out := (dirLanes (s.ctx.dirOf a)).map (dtoLane fmt rm (s.ctx.normOf a))
    let s := s.modMyCtx fun x => if x.tagOf d = .void then x.tagTile (tOf d) (Tag.ofFmt fmt) else x
    if fmt = .bf16 then dtoRow s d rf.toNat 16 out
    else dtoRow (dtoRow s d rf.toNat 32 (out.take 64)) d (rf.toNat + 1) 32 (out.drop 64)

def execDcos (g : Guard) (e : Bool) (d a b : Port) (s : State) : Host.Outcome State Fault Refusal :=
  issue (.dcos g e d a b) s fun s => dvResult s 3 e d (dcosOf (s.ctx.dirOf a) (s.ctx.dirOf b))
def execDdotw (g : Guard) (e : Bool) (d a b : Port) (s : State) : Host.Outcome State Fault Refusal :=
  issue (.ddotw g e d a b) s fun s =>
    dvResult s 4 e d (ddotwOf (s.ctx.dirOf a) (s.ctx.dirOf b) (s.ctx.normOf a) (s.ctx.normOf b))
def execDscl (g : Guard) (d a b : Port) (s : State) : Host.Outcome State Fault Refusal :=
  issue (.dscl g d a b) s fun s => pairWrite s d (dsclOf false (s.ctx.dirOf a) (s.ctx.normOf a) (s.ctx.f32 b))
def execDadd (g : Guard) (d a b : Port) (s : State) : Host.Outcome State Fault Refusal :=
  issue (.dadd g d a b) s fun s =>
    pairWrite s d (daddOf false (s.ctx.dirOf a) (s.ctx.dirOf b) (s.ctx.normOf a) (s.ctx.normOf b))
def execDsub (g : Guard) (d a b : Port) (s : State) : Host.Outcome State Fault Refusal :=
  issue (.dsub g d a b) s fun s =>
    pairWrite s d (daddOf true (s.ctx.dirOf a) (s.ctx.dirOf b) (s.ctx.normOf a) (s.ctx.normOf b))
def execDlerp (g : Guard) (d a b c : Port) (s : State) : Host.Outcome State Fault Refusal :=
  issue (.dlerp g d a b c) s fun s =>
    pairWrite s d (dlerpOf (s.ctx.dirOf a) (s.ctx.dirOf b) (s.ctx.normOf a) (s.ctx.normOf b) (s.ctx.f32 c))

/-- DNEG (R181): a NaN pair and the zero code stay what they are. -/
def dnegOf (a : Row) (na : Nat) : Pair :=
  if (unpack .f32 na).isNaN then Pair.nan 0#8 else if na = ninf32 then Pair.zero 0#8
  else ⟨(dirLanes a).map fun v => -v, na, 0#8⟩

def execDneg (g : Guard) (d a : Port) (s : State) : Host.Outcome State Fault Refusal :=
  issue (.dneg g d a) s fun s => pairWrite s d (dnegOf (s.ctx.dirOf a) (s.ctx.normOf a))

/-- The cosine DCMP compares, and the flags of computing it (R186). -/
def Ctx.cosine (x : Ctx) (a b : Port) : LaneOut :=
  match a with
  | .d _ => dcosOf (x.dirOf a) (x.dirOf b)
  | _ => (x.f32 a, 0#8)

/-- What DCMP writes (R186). -/
def dcmpWord (act act1 act0 : Nat) (t : Bool) : Nat :=
  if act = 1 then (if t then act1 else act0) * 2 ^ 14 else if t then 1 else 0

def execDcmp (g : Guard) (e : Bool) (d a b c : Port) (act1 act0 : BitVec 2) (act : Bool) (cond : FCond) (s : State) :
    Host.Outcome State Fault Refusal :=
  issue (.dcmp g e d a b c act1 act0 act cond) s fun s =>
    let (y, f) := s.ctx.cosine a b
    let (t, f') := fcmpHolds cond (unpack .f32 y) (unpack .f32 (s.ctx.f32 c))
    dvResult s 3 e d (dcmpWord act.toNat act1.toNat act0.toNat t, f ||| f')

def execDnget (g : Guard) (e : Bool) (d a : Port) (s : State) : Host.Outcome State Fault Refusal :=
  issue (.dnget g e d a) s fun s => dvResult s 1 e d (s.ctx.normOf a, 0#8)
def execDnset (g : Guard) (d a : Port) (s : State) : Host.Outcome State Fault Refusal :=
  issue (.dnset g d a) s fun s => pairWrite s d (dnsetOf (s.ctx.dirOf d) (s.ctx.normOf d) (s.ctx.f32 a))
def execDsplit (g : Guard) (d a b : Port) (s : State) : Host.Outcome State Fault Refusal :=
  issue (.dsplit g d a b) s fun s => pairWrite s d (dsclOf true (s.ctx.dirOf a) (s.ctx.normOf a) (s.ctx.f32 b))

/-- Is this operand a scalar, not a norm (R185)? -/
def isScalarSrc : Port → Bool
  | .nrm _ => false
  | _ => true

def execDjoin (g : Guard) (e : Bool) (d a b : Port) (s : State) : Host.Outcome State Fault Refusal :=
  issue (.djoin g e d a b) s fun s => dvResult s 4 e d (djoinOf (s.ctx.f32 a) (s.ctx.f32 b) (isScalarSrc a) (isScalarSrc b))

end Sys2Proof.Machine
end

