-- ==== Sys2Proof/Machine/Scalar.lean ====
section
/-! DEFINITION. Machine/Scalar.lean: the S class (R126 to R135). -/

namespace Sys2Proof.Machine

/-- A scalar ALU result: value and flags computed at issue, landing `lat` cycles later in D and the slot's bypass register
(R126). -/
def alu (i : Instr) (u : Alu) (lat : Nat) (e : Bool) (d : Port) (f : Ctx → Word × FlagSet) (s : State) :
    Host.Outcome State Fault Refusal :=
  issue i s fun s => let (v, fl) := f s.ctx; s.result u.unit u.pos lat e d v fl

/-- An integer instruction: no flags (R126). -/
def aluInt (i : Instr) (u : Alu) (lat : Nat) (e : Bool) (d : Port) (f : Ctx → Word) (s : State) :
    Host.Outcome State Fault Refusal :=
  alu i u lat e d (fun x => (f x, 0#8)) s

/-- The shift amount B[5:0] (R127). -/
def shiftAmt (b : Word) : Nat := b.toNat % 64

def divWord (a b : Word) : Word := if b = 0 then BitVec.allOnes 64 else a.sdiv b
def divuWord (a b : Word) : Word := if b = 0 then BitVec.allOnes 64 else a / b
def clzWord (a : Word) : Word := if a = 0 then 64 else BitVec.ofNat 64 (63 - Nat.log2 a.toNat)
def ctzWord (a : Word) : Word := BitVec.ofNat 64 (((upFrom 0 64).find? fun i => a.getLsbD i).getD 64)
def brevWord (a : Word) : Word := BitVec.ofNat 64 (maskOf ((upFrom 0 64).map fun i => a.getLsbD (63 - i)))
def boolWord (b : Bool) : Word := if b then 1 else 0

def execAdd (u : Alu) (g : Guard) (e : Bool) (d a b : Port) (s : State) : Host.Outcome State Fault Refusal :=
  aluInt (.add u g e d a b) u 1 e d (fun x => x.val a + x.val b) s
def execAddi (u : Alu) (g : Guard) (d a : Port) (imm : BitVec 27) (s : State) : Host.Outcome State Fault Refusal :=
  aluInt (.addi u g d a imm) u 1 false d (fun x => x.val a + imm.signExtend 64) s
def execSub (u : Alu) (g : Guard) (e : Bool) (d a b : Port) (s : State) : Host.Outcome State Fault Refusal :=
  aluInt (.sub u g e d a b) u 1 e d (fun x => x.val a - x.val b) s
def execMul (u : Alu) (g : Guard) (e : Bool) (d a b : Port) (s : State) : Host.Outcome State Fault Refusal :=
  aluInt (.mul u g e d a b) u 3 e d (fun x => x.val a * x.val b) s
def execMulh (u : Alu) (g : Guard) (e : Bool) (d a b : Port) (s : State) : Host.Outcome State Fault Refusal :=
  aluInt (.mulh u g e d a b) u 3 e d (fun x => ((x.val a).signExtend 128 * (x.val b).signExtend 128).extractLsb' 64 64) s
def execMulhu (u : Alu) (g : Guard) (e : Bool) (d a b : Port) (s : State) : Host.Outcome State Fault Refusal :=
  aluInt (.mulhu u g e d a b) u 3 e d (fun x => ((x.val a).setWidth 128 * (x.val b).setWidth 128).extractLsb' 64 64) s
def execDiv (u : Alu) (g : Guard) (e : Bool) (d a b : Port) (s : State) : Host.Outcome State Fault Refusal :=
  aluInt (.div u g e d a b) u 18 e d (fun x => divWord (x.val a) (x.val b)) s
def execDivu (u : Alu) (g : Guard) (e : Bool) (d a b : Port) (s : State) : Host.Outcome State Fault Refusal :=
  aluInt (.divu u g e d a b) u 18 e d (fun x => divuWord (x.val a) (x.val b)) s
def execRem (u : Alu) (g : Guard) (e : Bool) (d a b : Port) (s : State) : Host.Outcome State Fault Refusal :=
  aluInt (.rem u g e d a b) u 18 e d (fun x => x.val a - x.val b * divWord (x.val a) (x.val b)) s
def execRemu (u : Alu) (g : Guard) (e : Bool) (d a b : Port) (s : State) : Host.Outcome State Fault Refusal :=
  aluInt (.remu u g e d a b) u 18 e d (fun x => x.val a % x.val b) s
def execAnd (u : Alu) (g : Guard) (e : Bool) (d a b : Port) (s : State) : Host.Outcome State Fault Refusal :=
  aluInt (.and u g e d a b) u 1 e d (fun x => x.val a &&& x.val b) s
def execAndn (u : Alu) (g : Guard) (e : Bool) (d a b : Port) (s : State) : Host.Outcome State Fault Refusal :=
  aluInt (.andn u g e d a b) u 1 e d (fun x => x.val a &&& ~~~(x.val b)) s
def execOr (u : Alu) (g : Guard) (e : Bool) (d a b : Port) (s : State) : Host.Outcome State Fault Refusal :=
  aluInt (.or u g e d a b) u 1 e d (fun x => x.val a ||| x.val b) s
def execXor (u : Alu) (g : Guard) (e : Bool) (d a b : Port) (s : State) : Host.Outcome State Fault Refusal :=
  aluInt (.xor u g e d a b) u 1 e d (fun x => x.val a ^^^ x.val b) s
def execShl (u : Alu) (g : Guard) (e : Bool) (d a b : Port) (s : State) : Host.Outcome State Fault Refusal :=
  aluInt (.shl u g e d a b) u 1 e d (fun x => x.val a <<< shiftAmt (x.val b)) s
def execShr (u : Alu) (g : Guard) (e : Bool) (d a b : Port) (s : State) : Host.Outcome State Fault Refusal :=
  aluInt (.shr u g e d a b) u 1 e d (fun x => x.val a >>> shiftAmt (x.val b)) s
def execSar (u : Alu) (g : Guard) (e : Bool) (d a b : Port) (s : State) : Host.Outcome State Fault Refusal :=
  aluInt (.sar u g e d a b) u 1 e d (fun x => (x.val a).sshiftRight (shiftAmt (x.val b))) s
def execRol (u : Alu) (g : Guard) (e : Bool) (d a b : Port) (s : State) : Host.Outcome State Fault Refusal :=
  aluInt (.rol u g e d a b) u 1 e d (fun x => (x.val a).rotateLeft (shiftAmt (x.val b))) s
def execMin (u : Alu) (g : Guard) (e : Bool) (d a b : Port) (s : State) : Host.Outcome State Fault Refusal :=
  aluInt (.min u g e d a b) u 1 e d (fun x => if (x.val a).sle (x.val b) then x.val a else x.val b) s
def execMax (u : Alu) (g : Guard) (e : Bool) (d a b : Port) (s : State) : Host.Outcome State Fault Refusal :=
  aluInt (.max u g e d a b) u 1 e d (fun x => if (x.val a).sle (x.val b) then x.val b else x.val a) s
def execMinu (u : Alu) (g : Guard) (e : Bool) (d a b : Port) (s : State) : Host.Outcome State Fault Refusal :=
  aluInt (.minu u g e d a b) u 1 e d (fun x => if (x.val a).ule (x.val b) then x.val a else x.val b) s
def execMaxu (u : Alu) (g : Guard) (e : Bool) (d a b : Port) (s : State) : Host.Outcome State Fault Refusal :=
  aluInt (.maxu u g e d a b) u 1 e d (fun x => if (x.val a).ule (x.val b) then x.val b else x.val a) s
def execClz (u : Alu) (g : Guard) (e : Bool) (d a : Port) (s : State) : Host.Outcome State Fault Refusal :=
  aluInt (.clz u g e d a) u 1 e d (fun x => clzWord (x.val a)) s
def execCtz (u : Alu) (g : Guard) (e : Bool) (d a : Port) (s : State) : Host.Outcome State Fault Refusal :=
  aluInt (.ctz u g e d a) u 1 e d (fun x => ctzWord (x.val a)) s
def execPopc (u : Alu) (g : Guard) (e : Bool) (d a : Port) (s : State) : Host.Outcome State Fault Refusal :=
  aluInt (.popc u g e d a) u 1 e d (fun x => BitVec.ofNat 64 (popcount (x.val a).toNat 64)) s
def execBrev (u : Alu) (g : Guard) (e : Bool) (d a : Port) (s : State) : Host.Outcome State Fault Refusal :=
  aluInt (.brev u g e d a) u 1 e d (fun x => brevWord (x.val a)) s
def execMov (u : Alu) (g : Guard) (e : Bool) (d a : Port) (s : State) : Host.Outcome State Fault Refusal :=
  aluInt (.mov u g e d a) u 1 e d (fun x => x.val a) s

/-- EXT's field (R129). -/
def extField (v : Word) (sx : Bool) (pos len : Nat) : Word :=
  let f := bvField v pos len
  if sx then BitVec.ofInt 64 (sextNat len f) else BitVec.ofNat 64 f

def execExt (u : Alu) (g : Guard) (e : Bool) (d a : Port) (sx : Bool) (bpos len1 : BitVec 6) (s : State) :
    Host.Outcome State Fault Refusal :=
  aluInt (.ext u g e d a sx bpos len1) u 1 e d (fun x => extField (x.val a) sx bpos.toNat (len1.toNat + 1)) s
def execIns (u : Alu) (g : Guard) (e : Bool) (d a b : Port) (bpos len1 : BitVec 6) (s : State) :
    Host.Outcome State Fault Refusal :=
  aluInt (.ins u g e d a b bpos len1) u 1 e d (fun x => bvSet (x.val a) bpos.toNat (len1.toNat + 1) (x.val b).toNat) s
def execSel (u : Alu) (g : Guard) (e : Bool) (d a b c : Port) (s : State) : Host.Outcome State Fault Refusal :=
  aluInt (.sel u g e d a b c) u 1 e d (fun x => if x.val c ≠ 0 then x.val a else x.val b) s

/-- CMP's conditions (R131). -/
def cmpHolds (c : CmpCond) (a b : Word) : Bool :=
  match c with
  | .eq => a == b | .ne => a != b | .lt => a.slt b | .ge => !a.slt b | .ltu => a.ult b | .geu => !a.ult b
  | .gt => b.slt a | .le => !b.slt a | .gtu => b.ult a | .leu => !b.ult a

def execCmp (u : Alu) (g : Guard) (e : Bool) (d a b : Port) (cond : CmpCond) (s : State) : Host.Outcome State Fault Refusal :=
  aluInt (.cmp u g e d a b cond) u 1 e d (fun x => boolWord (cmpHolds cond (x.val a) (x.val b))) s
def execLi (u : Alu) (g : Guard) (d : Port) (imm : BitVec 27) (s : State) : Host.Outcome State Fault Refusal :=
  aluInt (.li u g d imm) u 1 false d (fun _ => imm.signExtend 64) s
def execLih (u : Alu) (g : Guard) (d : Port) (imm : BitVec 37) (s : State) : Host.Outcome State Fault Refusal :=
  aluInt (.lih u g d imm) u 1 false d (fun x => imm ++ (x.val d).extractLsb' 0 27) s

/-- A predicate result: no bypass register is written (R133). -/
def aluPred (i : Instr) (u : Alu) (d : Port) (f : Ctx → Bool) (s : State) : Host.Outcome State Fault Refusal :=
  issue i s fun s => match d with
    | .p r => s.launch u.unit u.pos 1 0#8 [.pred r.val (f s.ctx)]
    | _ => s

def execPset (u : Alu) (g : Guard) (d a : Port) (s : State) : Host.Outcome State Fault Refusal :=
  aluPred (.pset u g d a) u d (fun x => x.val a != 0) s
def execPlog (u : Alu) (g : Guard) (d a b : Port) (tt : BitVec 4) (s : State) : Host.Outcome State Fault Refusal :=
  aluPred (.plog u g d a b tt) u d (fun x => tt.getLsbD (2 * (x.val a).toNat + (x.val b).toNat)) s

/-! ## Floating point (R134) -/

/-- The format of .s and .d. -/
def SD.fmt : SD → Fmt
  | .s => .f32 | .d => .f64

/-- The bits of a source: [31:0] under .s, all of it under .d. -/
def fpBits (f : SD) (v : Word) : Nat := match f with
  | .s => v.toNat % 2 ^ 32 | .d => v.toNat

def fpVal (f : SD) (v : Word) : FV := unpack (SD.fmt f) (fpBits f v)

/-- A rounded result, zero-extended. -/
def fpRound (f : SD) (rm : Rnd) (v : FV) : Word × FlagSet :=
  let (y, fl) := roundF (SD.fmt f) rm false v
  (BitVec.ofNat 64 y, fl)

def latDiv : SD → Nat
  | .s => 12 | .d => 22

def execFadd (u : Alu) (g : Guard) (e : Bool) (d a b : Port) (fmt : SD) (rm : Rnd) (s : State) : Host.Outcome State Fault Refusal :=
  alu (.fadd u g e d a b fmt rm) u 4 e d (fun x => fpRound fmt rm (FV.add rm (fpVal fmt (x.val a)) (fpVal fmt (x.val b)))) s
def execFsub (u : Alu) (g : Guard) (e : Bool) (d a b : Port) (fmt : SD) (rm : Rnd) (s : State) : Host.Outcome State Fault Refusal :=
  alu (.fsub u g e d a b fmt rm) u 4 e d (fun x => fpRound fmt rm (FV.sub rm (fpVal fmt (x.val a)) (fpVal fmt (x.val b)))) s
def execFmul (u : Alu) (g : Guard) (e : Bool) (d a b : Port) (fmt : SD) (rm : Rnd) (s : State) : Host.Outcome State Fault Refusal :=
  alu (.fmul u g e d a b fmt rm) u 4 e d (fun x => fpRound fmt rm (FV.mul (fpVal fmt (x.val a)) (fpVal fmt (x.val b)))) s
def execFfma (u : Alu) (g : Guard) (e : Bool) (d a b c : Port) (fmt : SD) (rm : Rnd) (s : State) : Host.Outcome State Fault Refusal :=
  alu (.ffma u g e d a b c fmt rm) u 5 e d
    (fun x => fpRound fmt rm (FV.fma rm (fpVal fmt (x.val a)) (fpVal fmt (x.val b)) (fpVal fmt (x.val c)))) s
def execFdiv (u : Alu) (g : Guard) (e : Bool) (d a b : Port) (fmt : SD) (rm : Rnd) (s : State) : Host.Outcome State Fault Refusal :=
  alu (.fdiv u g e d a b fmt rm) u (latDiv fmt) e d
    (fun x =>
      let (q, dz) := FV.div (fpVal fmt (x.val a)) (fpVal fmt (x.val b))
      let (v, fl) := fpRound fmt rm q
      (v, fl ||| dz)) s
def execFsqrt (u : Alu) (g : Guard) (e : Bool) (d a : Port) (fmt : SD) (rm : Rnd) (s : State) : Host.Outcome State Fault Refusal :=
  alu (.fsqrt u g e d a fmt rm) u (latDiv fmt) e d (fun x => fpRound fmt rm (FV.sqrt (fpVal fmt (x.val a)))) s

/-- FMIN and FMAX (R134). -/
def fpMinMax (f : SD) (isMax : Bool) (a b : Word) : Word × FlagSet :=
  let (y, fl) := fminmax (SD.fmt f) isMax (fpBits f a) (fpBits f b)
  (BitVec.ofNat 64 y, fl)

def execFmin (u : Alu) (g : Guard) (e : Bool) (d a b : Port) (fmt : SD) (s : State) : Host.Outcome State Fault Refusal :=
  alu (.fmin u g e d a b fmt) u 2 e d (fun x => fpMinMax fmt false (x.val a) (x.val b)) s
def execFmax (u : Alu) (g : Guard) (e : Bool) (d a b : Port) (fmt : SD) (s : State) : Host.Outcome State Fault Refusal :=
  alu (.fmax u g e d a b fmt) u 2 e d (fun x => fpMinMax fmt true (x.val a) (x.val b)) s
def execFcmp (u : Alu) (g : Guard) (e : Bool) (d a b : Port) (fmt : SD) (cond : FCond) (s : State) : Host.Outcome State Fault Refusal :=
  alu (.fcmp u g e d a b fmt cond) u 2 e d
    (fun x => let (t, fl) := fcmpHolds cond (fpVal fmt (x.val a)) (fpVal fmt (x.val b)); (boolWord t, fl)) s

/-- FCVT: the source's low bits, converted once; an INT32 result is sign-extended (R134). -/
def fcvtWord (dst src : Fmt) (rm : Rnd) (a : Word) : Word × FlagSet :=
  let n := bvField a 0 (fmtWidth src)
  let v := if src = .i32 then FV.ofInt (sextNat 32 n) 0 else unpack src n
  let (y, fl) := roundMode dst rm false v
  (if dst = .i32 then BitVec.ofInt 64 (sextNat 32 y) else BitVec.ofNat 64 y, fl)

def execFcvt (u : Alu) (g : Guard) (e : Bool) (d a : Port) (dst : Fmt) (rm : Rnd) (src : Fmt) (s : State) :
    Host.Outcome State Fault Refusal :=
  alu (.fcvt u g e d a dst rm src) u 3 e d (fun x => fcvtWord dst src rm (x.val a)) s

/-! ## Handles (R135) -/

/-- The low bit and width of a handle field by selector (R123, R135). -/
def handleField (sl : Nat) : Nat × Nat :=
  match sl with
  | 0 => (0, 64) | 1 => (64, 64) | 2 => (128, 64) | 3 => (192, 64) | 4 => (64, 4) | 5 => (68, 2) | 6 => (70, 2) | 7 => (72, 2)
  | 8 => (74, 5) | 9 => (79, 1) | 10 => (80, 1) | 11 => (81, 1) | 12 => (96, 24) | 13 => (150, 16) | 14 => (195, 16)
  | 15 => (240, 16) | 16 => (121, 29) | 17 => (166, 29) | 18 => (211, 29) | _ => (0, 0)

/-- HGET's value: strides are sign-extended. -/
def hgetWord (h : HandleBits) (sl : Nat) : Word :=
  let (lo, w) := handleField sl
  if sl ≥ 16 then BitVec.ofInt 64 (sextNat w (bvField h lo w)) else BitVec.ofNat 64 (bvField h lo w)

/-- A handle's reserved bits 120 and [95:82] (R123). -/
def handleReserved : HandleBits := bvSet (bvSet 0 120 1 1) 82 14 0x3FFF

/-- HSET's handle: the field replaced, reserved bits 0. -/
def hsetHandle (h : HandleBits) (sl : Nat) (b : Word) : HandleBits :=
  let (lo, w) := handleField sl
  bvSet h lo w b.toNat &&& ~~~handleReserved

def execHget (u : Alu) (g : Guard) (e : Bool) (d a : Port) (sl : BitVec 5) (s : State) : Host.Outcome State Fault Refusal :=
  aluInt (.hget u g e d a sl) u 1 e d (fun x => hgetWord (x.handle (hOf a)) sl.toNat) s
def execHset (u : Alu) (g : Guard) (d a b : Port) (sl : BitVec 5) (s : State) : Host.Outcome State Fault Refusal :=
  issue (.hset u g d a b sl) s fun s =>
    s.launch u.unit u.pos 1 0#8 [.handle (hOf d) (hsetHandle (s.ctx.handle (hOf a)) sl.toNat (s.ctx.val b))]
def execHadv (u : Alu) (g : Guard) (d a b : Port) (dim : BitVec 2) (s : State) : Host.Outcome State Fault Refusal :=
  issue (.hadv u g d a b dim) s fun s =>
    s.launch u.unit u.pos 2 0#8 [.handle (hOf d) (Handle.advance (s.ctx.handle (hOf a)) (s.ctx.val b).toInt dim.toNat)]

end Sys2Proof.Machine
end

