-- ==== Sys2Proof/Machine/Sequencer.lean ====
section
/-! DEFINITION. Machine/Sequencer.lean: the control-transfer instructions of unit br (R97 to R107). -/

namespace Sys2Proof.Machine

/-! ## Instructions -/

def State.modSeq (s : State) (f : Seq → Seq) : State := s.modMyCtx fun x => { x with seq := f x.seq }

/-- A transfer, taken or not, marks its two delay slots (R98). -/
def markDelay (s : State) : State := s.modSeq fun q => { q with dsc := 2 }

/-- A taken transfer to a byte address (R98). -/
def transferTo (t : Nat) (s : State) : State :=
  s.modSeq fun q => { q with dsc := 2, ptgt := BitVec.ofNat 12 (t / 64), pdly := 2 }

/-- The target `disp` bundles from the transfer's own (R99). -/
def dispTarget (s : State) (disp : Int) : Nat := (relTarget s.ctx.seq.pc disp).toNat

/-- The link: the address of the first bundle after the delay slots, landing at latency 1 (R103). -/
def linkTo (d : Port) (s : State) : State := s.result .br 7 1 false d (BitVec.ofNat 64 (s.ctx.seq.pc + 192)) 0#8

/-- BRC's conditions, on a signed 64-bit integer (R103). -/
def brHolds (c : BrCond) (v : Word) : Bool :=
  match c with
  | .eqz => v == 0 | .nez => v != 0 | .ltz => v.slt 0 | .gez => !v.slt 0 | .lez => !(0#64).slt v | .gtz => (0#64).slt v

def execBr (g : Guard) (disp : BitVec 27) (s : State) : Host.Outcome State Fault Refusal :=
  issue (.br g disp) s (fun s => transferTo (dispTarget s disp.toInt) s) markDelay
def execBrc (g : Guard) (a : Port) (cond : BrCond) (disp : BitVec 24) (s : State) : Host.Outcome State Fault Refusal :=
  issue (.brc g a cond disp) s
    (fun s => if brHolds cond (s.ctx.val a) then transferTo (dispTarget s disp.toInt) s else markDelay s) markDelay
def execCall (g : Guard) (d : Port) (disp : BitVec 27) (s : State) : Host.Outcome State Fault Refusal :=
  issue (.call g d disp) s (fun s => linkTo d (transferTo (dispTarget s disp.toInt) s)) markDelay
def execRet (g : Guard) (a : Port) (s : State) : Host.Outcome State Fault Refusal :=
  issue (.ret g a) s
    (fun s => transferTo (s.ctx.val a).toNat (traceEmit s s.cur 2 3 0 s.ctx.seq.pc (s.ctx.val a).toNat 0)) markDelay
def execJr (g : Guard) (d a : Port) (s : State) : Host.Outcome State Fault Refusal :=
  issue (.jr g d a) s (fun s => linkTo d (transferTo (s.ctx.val a).toNat s)) markDelay

/-- Set up a loop of `n` iterations that ends `e` bundles on, or pass over its body (R105). -/
def loopSetup (e n : Nat) (s : State) : State :=
  s.modSeq fun q =>
    if n = 0 then { q with skip := e }
    else q.push ⟨0, BitVec.ofNat 20 n, BitVec.ofNat 12 (q.pc / 64 + 1), BitVec.ofNat 12 (q.pc / 64 + e)⟩

def execLoop (g : Guard) (a : Port) (edisp : BitVec 12) (s : State) : Host.Outcome State Fault Refusal :=
  issue (.loop g a edisp) s fun s => loopSetup edisp.toNat (loopCount s.ctx (.loop g a edisp)) s
def execLoopl (g : Guard) (edisp : BitVec 12) (s : State) : Host.Outcome State Fault Refusal :=
  issue (.loopl g edisp) s fun s => loopSetup edisp.toNat (loopCount s.ctx (.loopl g edisp)) s

/-- Leave the innermost `n` loops: the pops follow when the delay slots have issued (R106). -/
def leaveLoops (n : Nat) (s : State) : State :=
  let e := vget s.ctx.seq.loops (n - 1) LoopEntry.zero
  (transferTo (64 * e.fin.toNat + 64) s).modSeq fun q => { q with pops := n }

def execLoopx (g : Guard) (n : BitVec 3) (s : State) : Host.Outcome State Fault Refusal :=
  issue (.loopx g n) s (leaveLoops n.toNat) markDelay
/-- END: no further bundle issues, and the loop stack is discarded (R107). -/
def execFin (g : Guard) (s : State) : Host.Outcome State Fault Refusal :=
  issue (.fin g) s fun s => s.modSeq fun q => { q with halt := true, loops := Vector.replicate 6 LoopEntry.zero, depth := 0 }

end Sys2Proof.Machine
end

