-- ==== Sys2Proof/Machine/Dispatch.lean ====
section
/-! DEFINITION. Machine/Dispatch.lean: one arm per constructor of Instr. -/

namespace Sys2Proof.Machine

def exec (i : Instr) (s : State) : Host.Outcome State Fault Refusal :=
  match i with
  | .add u g e d a b => Sys2Proof.Machine.execAdd u g e d a b s
  | .addi u g d a imm => Sys2Proof.Machine.execAddi u g d a imm s
  | .sub u g e d a b => Sys2Proof.Machine.execSub u g e d a b s
  | .mul u g e d a b => Sys2Proof.Machine.execMul u g e d a b s
  | .mulh u g e d a b => Sys2Proof.Machine.execMulh u g e d a b s
  | .mulhu u g e d a b => Sys2Proof.Machine.execMulhu u g e d a b s
  | .div u g e d a b => Sys2Proof.Machine.execDiv u g e d a b s
  | .divu u g e d a b => Sys2Proof.Machine.execDivu u g e d a b s
  | .rem u g e d a b => Sys2Proof.Machine.execRem u g e d a b s
  | .remu u g e d a b => Sys2Proof.Machine.execRemu u g e d a b s
  | .and u g e d a b => Sys2Proof.Machine.execAnd u g e d a b s
  | .andn u g e d a b => Sys2Proof.Machine.execAndn u g e d a b s
  | .or u g e d a b => Sys2Proof.Machine.execOr u g e d a b s
  | .xor u g e d a b => Sys2Proof.Machine.execXor u g e d a b s
  | .shl u g e d a b => Sys2Proof.Machine.execShl u g e d a b s
  | .shr u g e d a b => Sys2Proof.Machine.execShr u g e d a b s
  | .sar u g e d a b => Sys2Proof.Machine.execSar u g e d a b s
  | .rol u g e d a b => Sys2Proof.Machine.execRol u g e d a b s
  | .min u g e d a b => Sys2Proof.Machine.execMin u g e d a b s
  | .max u g e d a b => Sys2Proof.Machine.execMax u g e d a b s
  | .minu u g e d a b => Sys2Proof.Machine.execMinu u g e d a b s
  | .maxu u g e d a b => Sys2Proof.Machine.execMaxu u g e d a b s
  | .clz u g e d a => Sys2Proof.Machine.execClz u g e d a s
  | .ctz u g e d a => Sys2Proof.Machine.execCtz u g e d a s
  | .popc u g e d a => Sys2Proof.Machine.execPopc u g e d a s
  | .brev u g e d a => Sys2Proof.Machine.execBrev u g e d a s
  | .mov u g e d a => Sys2Proof.Machine.execMov u g e d a s
  | .ext u g e d a sx bpos len1 => Sys2Proof.Machine.execExt u g e d a sx bpos len1 s
  | .ins u g e d a b bpos len1 => Sys2Proof.Machine.execIns u g e d a b bpos len1 s
  | .sel u g e d a b c => Sys2Proof.Machine.execSel u g e d a b c s
  | .cmp u g e d a b cond => Sys2Proof.Machine.execCmp u g e d a b cond s
  | .li u g d imm => Sys2Proof.Machine.execLi u g d imm s
  | .lih u g d imm => Sys2Proof.Machine.execLih u g d imm s
  | .pset u g d a => Sys2Proof.Machine.execPset u g d a s
  | .plog u g d a b tt => Sys2Proof.Machine.execPlog u g d a b tt s
  | .fadd u g e d a b fmt rm => Sys2Proof.Machine.execFadd u g e d a b fmt rm s
  | .fsub u g e d a b fmt rm => Sys2Proof.Machine.execFsub u g e d a b fmt rm s
  | .fmul u g e d a b fmt rm => Sys2Proof.Machine.execFmul u g e d a b fmt rm s
  | .ffma u g e d a b c fmt rm => Sys2Proof.Machine.execFfma u g e d a b c fmt rm s
  | .fdiv u g e d a b fmt rm => Sys2Proof.Machine.execFdiv u g e d a b fmt rm s
  | .fsqrt u g e d a fmt rm => Sys2Proof.Machine.execFsqrt u g e d a fmt rm s
  | .fmin u g e d a b fmt => Sys2Proof.Machine.execFmin u g e d a b fmt s
  | .fmax u g e d a b fmt => Sys2Proof.Machine.execFmax u g e d a b fmt s
  | .fcmp u g e d a b fmt cond => Sys2Proof.Machine.execFcmp u g e d a b fmt cond s
  | .fcvt u g e d a dst rm src => Sys2Proof.Machine.execFcvt u g e d a dst rm src s
  | .hget u g e d a sl => Sys2Proof.Machine.execHget u g e d a sl s
  | .hset u g d a b sl => Sys2Proof.Machine.execHset u g d a b sl s
  | .hadv u g d a b dim => Sys2Proof.Machine.execHadv u g d a b dim s
  | .lds g e d a c sz sx off => Sys2Proof.Machine.execLds g e d a c sz sx off s
  | .sts g a b c sz off => Sys2Proof.Machine.execSts g a b c sz off s
  | .tld g d a b c => Sys2Proof.Machine.execTld g d a b c s
  | .tst g d a b c => Sys2Proof.Machine.execTst g d a b c s
  | .tldg g d a b c => Sys2Proof.Machine.execTldg g d a b c s
  | .tsts g d a b c => Sys2Proof.Machine.execTsts g d a b c s
  | .atomAdd g e d a b sc lvl q64 off => Sys2Proof.Machine.execAtomAdd g e d a b sc lvl q64 off s
  | .atomInc g e d a b sc lvl q64 off => Sys2Proof.Machine.execAtomInc g e d a b sc lvl q64 off s
  | .atomDec g e d a b sc lvl q64 off => Sys2Proof.Machine.execAtomDec g e d a b sc lvl q64 off s
  | .atomMin g e d a b sc lvl q64 uns off => Sys2Proof.Machine.execAtomMin g e d a b sc lvl q64 uns off s
  | .atomMax g e d a b sc lvl q64 uns off => Sys2Proof.Machine.execAtomMax g e d a b sc lvl q64 uns off s
  | .atomAnd g e d a b sc lvl q64 off => Sys2Proof.Machine.execAtomAnd g e d a b sc lvl q64 off s
  | .atomOr g e d a b sc lvl q64 off => Sys2Proof.Machine.execAtomOr g e d a b sc lvl q64 off s
  | .atomXor g e d a b sc lvl q64 off => Sys2Proof.Machine.execAtomXor g e d a b sc lvl q64 off s
  | .atomXchg g e d a b sc lvl q64 off => Sys2Proof.Machine.execAtomXchg g e d a b sc lvl q64 off s
  | .atomCas g e d a b c sc lvl q64 off => Sys2Proof.Machine.execAtomCas g e d a b c sc lvl q64 off s
  | .fence g sc => Sys2Proof.Machine.execFence g sc s
  | .bset g d a b => Sys2Proof.Machine.execBset g d a b s
  | .bpush g d a => Sys2Proof.Machine.execBpush g d a s
  | .bpop g d a => Sys2Proof.Machine.execBpop g d a s
  | .bqry g e d a sl => Sys2Proof.Machine.execBqry g e d a sl s
  | .vadd g d a b rm rf nl => Sys2Proof.Machine.execVadd g d a b rm rf nl s
  | .vsub g d a b rm rf nl => Sys2Proof.Machine.execVsub g d a b rm rf nl s
  | .vmul g d a b rm rf nl => Sys2Proof.Machine.execVmul g d a b rm rf nl s
  | .vfma g d a b c rm rf nl => Sys2Proof.Machine.execVfma g d a b c rm rf nl s
  | .vmin g d a b rf nl => Sys2Proof.Machine.execVmin g d a b rf nl s
  | .vmax g d a b rf nl => Sys2Proof.Machine.execVmax g d a b rf nl s
  | .vabs g d a rf nl => Sys2Proof.Machine.execVabs g d a rf nl s
  | .vneg g d a rf nl => Sys2Proof.Machine.execVneg g d a rf nl s
  | .vcmp g d a b cond rf nl => Sys2Proof.Machine.execVcmp g d a b cond rf nl s
  | .vsel g d a b c rf nl => Sys2Proof.Machine.execVsel g d a b c rf nl s
  | .vand g d a b rf nl => Sys2Proof.Machine.execVand g d a b rf nl s
  | .vor g d a b rf nl => Sys2Proof.Machine.execVor g d a b rf nl s
  | .vxor g d a b rf nl => Sys2Proof.Machine.execVxor g d a b rf nl s
  | .vshl g d a b rf nl => Sys2Proof.Machine.execVshl g d a b rf nl s
  | .vshr g d a b ar rf nl => Sys2Proof.Machine.execVshr g d a b ar rf nl s
  | .vcvt g d a b fmt rm rf nl => Sys2Proof.Machine.execVcvt g d a b fmt rm rf nl s
  | .vqnt g d a b fmt rm rf nl => Sys2Proof.Machine.execVqnt g d a b fmt rm rf nl s
  | .vdq g d a b c fmt rm rf nl => Sys2Proof.Machine.execVdq g d a b c fmt rm rf nl s
  | .vaddp8 g d a b fmt rf nl => Sys2Proof.Machine.execVaddp8 g d a b fmt rf nl s
  | .vmulp8 g d a b fmt rf nl => Sys2Proof.Machine.execVmulp8 g d a b fmt rf nl s
  | .vbcast g d a fmt rf nl => Sys2Proof.Machine.execVbcast g d a fmt rf nl s
  | .vrow g d a sf rf nl => Sys2Proof.Machine.execVrow g d a sf rf nl s
  | .vrowRel g d => Sys2Proof.Machine.execVrowRel g d s
  | .vperm g d a b rf nl => Sys2Proof.Machine.execVperm g d a b rf nl s
  | .vsum g e d a rm rf nl => Sys2Proof.Machine.execVsum g e d a rm rf nl s
  | .vmaxr g e d a arg rf nl => Sys2Proof.Machine.execVmaxr g e d a arg rf nl s
  | .vmred g d a b cop rm rf nl => Sys2Proof.Machine.execVmred g d a b cop rm rf nl s
  | .vmscan g d a b cop rm rf nl => Sys2Proof.Machine.execVmscan g d a b cop rm rf nl s
  | .vband g d a b rf nl => Sys2Proof.Machine.execVband g d a b rf nl s
  | .vpopc g d a rf nl => Sys2Proof.Machine.execVpopc g d a rf nl s
  | .vpfx g d a b rf nl => Sys2Proof.Machine.execVpfx g d a b rf nl s
  | .visect g e d a b c rf nl => Sys2Proof.Machine.execVisect g e d a b c rf nl s
  | .vlsem g d a b rf nl => Sys2Proof.Machine.execVlsem g d a b rf nl s
  | .exp2 g d a rf nl => Sys2Proof.Machine.execExp2 g d a rf nl s
  | .log2 g d a rf nl => Sys2Proof.Machine.execLog2 g d a rf nl s
  | .rcp g d a rm rf nl => Sys2Proof.Machine.execRcp g d a rm rf nl s
  | .rsqrt g d a rm rf nl => Sys2Proof.Machine.execRsqrt g d a rm rf nl s
  | .sqrt g d a rm rf nl => Sys2Proof.Machine.execSqrt g d a rm rf nl s
  | .sin g d a rf nl => Sys2Proof.Machine.execSin g d a rf nl s
  | .cos g d a rf nl => Sys2Proof.Machine.execCos g d a rf nl s
  | .tanh g d a rf nl => Sys2Proof.Machine.execTanh g d a rf nl s
  | .dfrom g d a rf => Sys2Proof.Machine.execDfrom g d a rf s
  | .dto g d a fmt rm rf => Sys2Proof.Machine.execDto g d a fmt rm rf s
  | .dcos g e d a b => Sys2Proof.Machine.execDcos g e d a b s
  | .ddotw g e d a b => Sys2Proof.Machine.execDdotw g e d a b s
  | .dscl g d a b => Sys2Proof.Machine.execDscl g d a b s
  | .dadd g d a b => Sys2Proof.Machine.execDadd g d a b s
  | .dsub g d a b => Sys2Proof.Machine.execDsub g d a b s
  | .dlerp g d a b c => Sys2Proof.Machine.execDlerp g d a b c s
  | .dneg g d a => Sys2Proof.Machine.execDneg g d a s
  | .dcmp g e d a b c act1 act0 act cond => Sys2Proof.Machine.execDcmp g e d a b c act1 act0 act cond s
  | .dnget g e d a => Sys2Proof.Machine.execDnget g e d a s
  | .dnset g d a => Sys2Proof.Machine.execDnset g d a s
  | .dsplit g d a b => Sys2Proof.Machine.execDsplit g d a b s
  | .djoin g e d a b => Sys2Proof.Machine.execDjoin g e d a b s
  | .mzero g d fmt => Sys2Proof.Machine.execMzero g d fmt s
  | .mload g d a keep => Sys2Proof.Machine.execMload g d a keep s
  | .mma g d a b c f ka kb depth => Sys2Proof.Machine.execMma g d a b c f ka kb depth s
  | .mmat g d a b c f ka kb depth => Sys2Proof.Machine.execMmat g d a b c f ka kb depth s
  | .mmask g a b => Sys2Proof.Machine.execMmask g a b s
  | .mdrain g d a b rm => Sys2Proof.Machine.execMdrain g d a b rm s
  | .mstep g d a b c steps1 => Sys2Proof.Machine.execMstep g d a b c steps1 s
  | .mstash g d a b c => Sys2Proof.Machine.execMstash g d a b c s
  | .munst g d a b c => Sys2Proof.Machine.execMunst g d a b c s
  | .mfmt g d a b fmt rm => Sys2Proof.Machine.execMfmt g d a b fmt rm s
  | .mqry g e d a sl => Sys2Proof.Machine.execMqry g e d a sl s
  | .msync g => Sys2Proof.Machine.execMsync g s
  | .tmv g d a b => Sys2Proof.Machine.execTmv g d a b s
  | .cpy g d a b c sc => Sys2Proof.Machine.execCpy g d a b c sc s
  | .cpyl g d a b sc stop llvl => Sys2Proof.Machine.execCpyl g d a b sc stop llvl s
  | .cpyq g e d sl => Sys2Proof.Machine.execCpyq g e d sl s
  | .hqpush g d a b => Sys2Proof.Machine.execHqpush g d a b s
  | .hqpop g d a b => Sys2Proof.Machine.execHqpop g d a b s
  | .rcmp g d a b c sh sth rsel rbase => Sys2Proof.Machine.execRcmp g d a b c sh sth rsel rbase s
  | .rrst g d a b c rbase => Sys2Proof.Machine.execRrst g d a b c rbase s
  | .rpred g d a b c ronly rdef blk => Sys2Proof.Machine.execRpred g d a b c ronly rdef blk s
  | .rset g d a b c v => Sys2Proof.Machine.execRset g d a b c v s
  | .rsetCfg g a => Sys2Proof.Machine.execRsetCfg g a s
  | .rcnt g e d a b sl => Sys2Proof.Machine.execRcnt g e d a b sl s
  | .kvapp g d a b cel => Sys2Proof.Machine.execKvapp g d a b cel s
  | .kvappGap g d a b c cel => Sys2Proof.Machine.execKvappGap g d a b c cel s
  | .kvcomAcc g d a b cel => Sys2Proof.Machine.execKvcomAcc g d a b cel s
  | .kvcomSet g d a b cel => Sys2Proof.Machine.execKvcomSet g d a b cel s
  | .kvtent g e d a cel => Sys2Proof.Machine.execKvtent g e d a cel s
  | .kvroll g d a cel => Sys2Proof.Machine.execKvroll g d a cel s
  | .kvrscl g d a b cel => Sys2Proof.Machine.execKvrscl g d a b cel s
  | .kvfill g d a b c cel => Sys2Proof.Machine.execKvfill g d a b c cel s
  | .attn g d a b c cel => Sys2Proof.Machine.execAttn g d a b c cel s
  | .shsend g d a b cel => Sys2Proof.Machine.execShsend g d a b cel s
  | .shrecv g d a cel => Sys2Proof.Machine.execShrecv g d a cel s
  | .exitn g d a b => Sys2Proof.Machine.execExitn g d a b s
  | .ovl g d a b frc ovn oslot => Sys2Proof.Machine.execOvl g d a b frc ovn oslot s
  | .opbpostArm g d a b cnt => Sys2Proof.Machine.execOpbpostArm g d a b cnt s
  | .opbpostDec g d a b => Sys2Proof.Machine.execOpbpostDec g d a b s
  | .br g disp => Sys2Proof.Machine.execBr g disp s
  | .brc g a cond disp => Sys2Proof.Machine.execBrc g a cond disp s
  | .call g d disp => Sys2Proof.Machine.execCall g d disp s
  | .ret g a => Sys2Proof.Machine.execRet g a s
  | .jr g d a => Sys2Proof.Machine.execJr g d a s
  | .loop g a edisp => Sys2Proof.Machine.execLoop g a edisp s
  | .loopl g edisp => Sys2Proof.Machine.execLoopl g edisp s
  | .loopx g n => Sys2Proof.Machine.execLoopx g n s
  | .fin g => Sys2Proof.Machine.execFin g s
  | .await g e d a b cons => Sys2Proof.Machine.execAwait g e d a b cons s
  | .post g d a b c sc rmt => Sys2Proof.Machine.execPost g d a b c sc rmt s
  | .syncd g e d lv => Sys2Proof.Machine.execSyncd g e d lv s
  | .yieldc g e d a => Sys2Proof.Machine.execYieldc g e d a s
  | .waitq g e d a => Sys2Proof.Machine.execWaitq g e d a s
  | .flushy g e d => Sys2Proof.Machine.execFlushy g e d s
  | .mark g rel exp => Sys2Proof.Machine.execMark g rel exp s
  | .ckpt g e d => Sys2Proof.Machine.execCkpt g e d s
  | .trap g code => Sys2Proof.Machine.execTrap g code s
  | .bkpt g btag => Sys2Proof.Machine.execBkpt g btag s
  | .nop g count => Sys2Proof.Machine.execNop g count s
  | .sysrd g e d a => Sys2Proof.Machine.execSysrd g e d a s
  | .syswr g d a => Sys2Proof.Machine.execSyswr g d a s
  | .eret g => Sys2Proof.Machine.execEret g s
  | .setdmr g e d a rd => Sys2Proof.Machine.execSetdmr g e d a rd s
  | .resultLanding c => Sys2Proof.Machine.execResultLanding c s
  | .ephemeralExpiry c n => Sys2Proof.Machine.execEphemeralExpiry c n s
  | .bankRefresh c => Sys2Proof.Machine.execBankRefresh c s
  | .groupWaitEnd c => Sys2Proof.Machine.execGroupWaitEnd c s
  | .vectorRowStart c sfu => Sys2Proof.Machine.execVectorRowStart c sfu s
  | .vectorRowLanding c => Sys2Proof.Machine.execVectorRowLanding c s
  | .pairNormLanding c => Sys2Proof.Machine.execPairNormLanding c s
  | .pairDirectionLanding c => Sys2Proof.Machine.execPairDirectionLanding c s
  | .mxOperationStart c => Sys2Proof.Machine.execMxOperationStart c s
  | .mxOperationRetire c => Sys2Proof.Machine.execMxOperationRetire c s
  | .mstepStepEnd c => Sys2Proof.Machine.execMstepStepEnd c s
  | .munstRowsLand c => Sys2Proof.Machine.execMunstRowsLand c s
  | .mstashWritesComplete c => Sys2Proof.Machine.execMstashWritesComplete c s
  | .fillSlotLanded c b n => Sys2Proof.Machine.execFillSlotLanded c b n s
  | .transferStart c ce => Sys2Proof.Machine.execTransferStart c ce s
  | .transferComplete c ce => Sys2Proof.Machine.execTransferComplete c ce s
  | .storeSlotPop c b => Sys2Proof.Machine.execStoreSlotPop c b s
  | .copyCommandTake c => Sys2Proof.Machine.execCopyCommandTake c s
  | .engineWaitEnd c => Sys2Proof.Machine.execEngineWaitEnd c s
  | .copyItemComplete c => Sys2Proof.Machine.execCopyItemComplete c s
  | .incrementArrival n => Sys2Proof.Machine.execIncrementArrival n s
  | .pibwinRead c => Sys2Proof.Machine.execPibwinRead c s
  | .kwinWrite c v => Sys2Proof.Machine.execKwinWrite c v s
  | .ksatWrite c v => Sys2Proof.Machine.execKsatWrite c v s
  | .atomPerform c => Sys2Proof.Machine.execAtomPerform c s
  | .atomComplete c => Sys2Proof.Machine.execAtomComplete c s
  | .fenceComplete c => Sys2Proof.Machine.execFenceComplete c s
  | .postSend c => Sys2Proof.Machine.execPostSend c s
  | .epochMarkerApply j n => Sys2Proof.Machine.execEpochMarkerApply j n s
  | .rowInstructionStart c => Sys2Proof.Machine.execRowInstructionStart c s
  | .rowInstructionComplete c => Sys2Proof.Machine.execRowInstructionComplete c s
  | .tmRequestSend c => Sys2Proof.Machine.execTmRequestSend c s
  | .cellarRequestPerform n r => Sys2Proof.Machine.execCellarRequestPerform n r s
  | .cellarRequestComplete n r => Sys2Proof.Machine.execCellarRequestComplete n r s
  | .permitGrant c hi => Sys2Proof.Machine.execPermitGrant c hi s
  | .microBatchPerform n r => Sys2Proof.Machine.execMicroBatchPerform n r s
  | .microBatchDeliver c hi => Sys2Proof.Machine.execMicroBatchDeliver c hi s
  | .shstWrite c v => Sys2Proof.Machine.execShstWrite c v s
  | .noticeAppend n => Sys2Proof.Machine.execNoticeAppend n s
  | .exitnAck n => Sys2Proof.Machine.execExitnAck n s
  | .hqEntryMove c => Sys2Proof.Machine.execHqEntryMove c s
  | .coreRelease c => Sys2Proof.Machine.execCoreRelease c s
  | .stepstWrite c v => Sys2Proof.Machine.execStepstWrite c v s
  | .armingPerform p => Sys2Proof.Machine.execArmingPerform p s
  | .taskPlace p h rects => Sys2Proof.Machine.execTaskPlace p h rects s
  | .stepDispatch p h c => Sys2Proof.Machine.execStepDispatch p h c s
  | .stepStart c => Sys2Proof.Machine.execStepStart c s
  | .taskDone p h => Sys2Proof.Machine.execTaskDone p h s
  | .taskFailed p h => Sys2Proof.Machine.execTaskFailed p h s
  | .dieCountChange p h rect => Sys2Proof.Machine.execDieCountChange p h rect s
  | .contextResume c => Sys2Proof.Machine.execContextResume c s
  | .trapEntry c => Sys2Proof.Machine.execTrapEntry c s
  | .doubleTrap c => Sys2Proof.Machine.execDoubleTrap c s
  | .breakpointFire c n => Sys2Proof.Machine.execBreakpointFire c n s
  | .preemptionLanding c => Sys2Proof.Machine.execPreemptionLanding c s
  | .contextSwitchDue c => Sys2Proof.Machine.execContextSwitchDue c s
  | .spill c => Sys2Proof.Machine.execSpill c s
  | .spillsp c => Sys2Proof.Machine.execSpillsp c s
  | .fill c => Sys2Proof.Machine.execFill c s
  | .fillsp c => Sys2Proof.Machine.execFillsp c s
  | .swout c => Sys2Proof.Machine.execSwout c s
  | .swin c => Sys2Proof.Machine.execSwin c s
  | .uncorrectableError c loc => Sys2Proof.Machine.execUncorrectableError c loc s
  | .atagWrite c v => Sys2Proof.Machine.execAtagWrite c v s
  | .scycWrite c v => Sys2Proof.Machine.execScycWrite c v s
  | .ephstWrite c v => Sys2Proof.Machine.execEphstWrite c v s
  | .seqstWrite c v => Sys2Proof.Machine.execSeqstWrite c v s
  | .lswinWrite c v => Sys2Proof.Machine.execLswinWrite c v s
  | .istagWrite c o v => Sys2Proof.Machine.execIstagWrite c o v s
  | .dsccmdWrite c v => Sys2Proof.Machine.execDsccmdWrite c v s
  | .discardMarkDone c => Sys2Proof.Machine.execDiscardMarkDone c s
  | .reelwinWrite c v => Sys2Proof.Machine.execReelwinWrite c v s
  | .traceRecordWrite c => Sys2Proof.Machine.execTraceRecordWrite c s
  | .replayCheckpoint p => Sys2Proof.Machine.execReplayCheckpoint p s
  | .doorbellWrite q v ro => Sys2Proof.Machine.execDoorbellWrite q v ro s
  | .commandFetch q => Sys2Proof.Machine.execCommandFetch q s
  | .commandFetchRetry q => Sys2Proof.Machine.execCommandFetchRetry q s
  | .arm q h cnt usec => Sys2Proof.Machine.execArm q h cnt usec s
  | .dec q h amt => Sys2Proof.Machine.execDec q h amt s
  | .inval q p va len => Sys2Proof.Machine.execInval q p va len s
  | .invalComplete p => Sys2Proof.Machine.execInvalComplete p s
  | .dbgstop q c => Sys2Proof.Machine.execDbgstop q c s
  | .attest q nonce report => Sys2Proof.Machine.execAttest q nonce report s
  | .psetup q p desc => Sys2Proof.Machine.execPsetup q p desc s
  | .ptear q p => Sys2Proof.Machine.execPtear q p s
  | .scrconsWrite p v => Sys2Proof.Machine.execScrconsWrite p v s
  | .stepRingAppend p => Sys2Proof.Machine.execStepRingAppend p s
  | .bar4Access off wr => Sys2Proof.Machine.execBar4Access off wr s
  | .moduleReset stages => Sys2Proof.Machine.execModuleReset stages s
  | .thermalThrottle temp watts => Sys2Proof.Machine.execThermalThrottle temp watts s
  | .thermalStop temp => Sys2Proof.Machine.execThermalStop temp s
  | .correctableError c => Sys2Proof.Machine.execCorrectableError c s
  | .qcfgWrite q cpl v => Sys2Proof.Machine.execQcfgWrite q cpl v s
  | .replay p n => Sys2Proof.Machine.execReplay p n s
  | .groupDomainArrival p h col gid => Sys2Proof.Machine.execGroupDomainArrival p h col gid s
  | .noticeTargetUnreachable n => Sys2Proof.Machine.execNoticeTargetUnreachable n s
  | .powerRemoval => Sys2Proof.Machine.execPowerRemoval s

end Sys2Proof.Machine
end

