-- ==== Sys2Proof/Machine/Step.lean ====
section
/-! DEFINITION. Machine/Step.lean: the step function, and placing an instruction where it fetches next. -/

namespace Sys2Proof.Machine

/-- One step of the module: an event, or a clock of one core. -/
def step (s : State) : Host.Outcome State Fault Refusal := moduleStep exec s

/-- The state with an instruction's bundle stored where the next step fetches it: core 0, as if its step had just started at
store address 0 (notes/assumptions/6.md). The bundle's bits are `w`; its last slot in use is given its stop bit. -/
def State.withFetchWord (s : State) (nbits w : Nat) : State :=
  match nbits with
  | 0 => s.withBundle (closeFrom (BitVec.ofNat 512 w) 8)
  | _ + 1 => s.withBundle (closeFrom (BitVec.ofNat 512 w) 8)

end Sys2Proof.Machine
end

