-- ==== Sys2Proof/Safety.lean ====
section
/-! DEFINITION. Safety.lean: the terms the statements use: when a slot instruction issues and acts, the state in which its
effect happens, and what a sound state of the module is. -/

namespace Sys2Proof.Machine

/-! ## Issue -/

/-- A slot instruction issues: the module has power, and either the checks of its group have passed or it passes them as a
bundle of its own. -/
def Issues (s : State) (i : Instr) : Prop := s.power = true ∧ (s.me.committing = true ∨ loneVerdict s i = .go)

/-- A slot instruction issues and acts: its guard is true (R30). -/
def Acts (s : State) (i : Instr) : Prop := Issues s i ∧ s.ctx.guard (guardOf i) = true

/-- The state in which the effect happens: an instruction that is a bundle of its own has left the wait its group was held in
and noted an expired register it read (R34, R118). -/
def issued (s : State) (i : Instr) : State := if s.me.committing then s else release s s.cur [i]

/-- The operation number is used up (notes/assumptions/4.md). -/
def used (s : State) : State := { s with nextId := s.nextId + 1 }

/-- The state after an instruction with the effect `f`. -/
def acted (s : State) (i : Instr) (f : State → State) : State := used (f (issued s i))

/-- The state after a scalar instruction of an S slot: in `lat` cycles its value lands in D and in the slot's bypass register,
with its flags (R32, R36, R79). -/
def landing (s : State) (i : Instr) (u : Alu) (lat : Nat) (e : Bool) (d : Port) (v : Word) (f : FlagSet) : State :=
  acted s i fun t => t.result u.unit u.pos lat e d v f

/-- The same for a predicate destination, which writes no bypass register (R133). -/
def predLanding (s : State) (i : Instr) (u : Alu) (r : Fin 8) (v : Bool) : State :=
  acted s i fun t => t.launch u.unit u.pos 1 0#8 [.pred r.val v]

/-- The instructions of the S class. -/
def isScalarClass (i : Instr) : Bool :=
  match slotInfo i with
  | some f => f.unit == .sa0 || f.unit == .sa1
  | none => false

/-- The instructions whose rows are read one a cycle: those with a row range (R145, R147). -/
def hasRows (i : Instr) : Bool := (rowRange i).2 != 0

/-! ## Memory -/

/-- Memory is in its canonical form: addresses rise strictly, and no entry equals what an unlisted address reads as. -/
def Memory.wf (m : List Host.Cell) : Bool := mwf 0#8 0 m

/-- The module's memory and its map of discarded lines are in their canonical forms. -/
def State.memOk (s : State) : Bool := Memory.wf s.mem && mwf false 0 s.discard

/-- Every byte of every space reads the same in both states. -/
def SameBytes (s t : State) : Prop := ∀ (sp : Space) (a : Nat), readByte t sp a = readByte s sp a

/-- An operation runs plainly: its context is on its core and neither away nor in a checkpoint, it is no rerun's repetition, and its
partition does not replay. -/
def Plain (s : State) (o : Op) : Prop :=
  o.core < 256 ∧ o.orig = none ∧ (s.core o.core).ctag = o.ctag ∧ (s.core o.core).away = [] ∧ (s.core o.core).ckpt = none ∧
    (s.part o.part).replay = none

/-- The spaces of the module: 256 cores with their scratchpads and instruction stores, 32 clusters, 4 dies, and the physical
addresses. -/
def spaceExists : Space → Prop
  | .core c => c < 256
  | .cluster k => k < 32
  | .die d => d < 4
  | .pa => True
  | .store c => c < 256

/-- The results and operations a trap would freeze have room in the save area, between the frame and the trace unit's words
(R387, R389). -/
def frameFits (x : Core) : Prop := ((x.entries x.ctx.flights x.ctx.va x.ctx.sf).flatMap Entry.bytes).length ≤ 0xEFF0

end Sys2Proof.Machine
end

