-- ==== Sys2Proof/Certificates/Slice0/Obligations.lean ====
section
/-! DEFINITION. Certificates/Slice0/Obligations.lean: the statements for the provers. -/

open Sys2Proof Sys2Proof.Machine

/-! ## Encoding, steps and issue -/

/-- R48: decoding is undoing encoding. For every well-formed slot instruction, every operand at every value its encoding admits,
the slot word the encoder writes decodes to that instruction, and so does the bundle that holds it alone. -/
def Obligations.DecodeOfEncode : Prop :=
  ∀ (i : Instr), i.wf = true →
    (∀ (stop : Bool) (pos : Nat) (w : SlotWord), encodeSlot stop i = some (pos, w) → decodeSlot pos w = .ok i ∧ w.getLsbD 63 = stop) ∧
    ((slotInfo i).isSome = true → ∃ b : BundleWord, encode i = some b ∧ decodeTableWord 512 b.toNat = some i)

/-- R30, R37, R45, R48: what the decoder accepts is well formed, and it is the one word that the encoder writes: a reserved field,
a reserved port or the guard that is never true is never accepted. -/
def Obligations.DecodedIsWellFormed : Prop :=
  ∀ (pos : Nat) (w : SlotWord) (i : Instr), pos < 8 → decodeSlot pos w = .ok i →
    i.wf = true ∧ encodeSlot (w.getLsbD 63) i = some (pos, w) ∧ w.extractLsb' 51 4 ≠ 8

/-- The words that the spec's chapters write out decode to the instructions they stand for: one of each slot class and unit. No
chapter writes out a word of sf: `exp2 a2.0:63, a0 !` is laid out from the fields of form R of the V class and R167's opcode. -/
def Obligations.SpecWordsDecode : Prop :=
  let g := Guard.always
  decodeSlot 0 0x0080202028000000 = .ok (.add .sa0 g false (.s 4) (.s 4) (.s 5)) ∧
  decodeSlot 0 0x8100303000000040 = .ok (.addi .sa0 g (.s 6) (.s 6) 64) ∧
  decodeSlot 1 0x9383982028000002 = .ok (.cmp .sa1 g false (.p 3) (.s 4) (.s 5) .lt) ∧
  decodeSlot 3 0x808414040800001F = .ok (.vadd g (.tile 2) (.tile 0) (.tile 1) .rne 0 31) ∧
  decodeSlot 4 0x81804C8488000000 = .ok (.dcos g false (.s 9) (.d 0) (.d 1)) ∧
  decodeSlot 5 0x8184058589FDFD00 = .ok (.mma g (.tile 0) (.b 0) (.b 1) .z .z false true 0) ∧
  decodeSlot 2 0x84059A1043140000 = .ok (.tld g (.b 3) (.h 2) (.s 8) (.k 5)) ∧
  decodeSlot 2 0x8880502028014040 = .ok (.atomInc g false (.s 10) (.s 4) (.s 5) .die .die false 64) ∧
  decodeSlot 6 0x8186104048000010 = .ok (.cpyl g (.k 2) (.s 8) (.s 9) .die false .core) ∧
  decodeSlot 6 0x88061A222828D000 = .ok (.rcmp g (.k 3) (.h 4) (.h 5) (.s 10) 6 true .live 0) ∧
  decodeSlot 6 0x9006121840000001 = .ok (.kvapp g (.k 2) (.h 3) (.s 8) true) ∧
  decodeSlot 6 0x9C86104048000002 = .ok (.opbpostArm g (.k 2) (.s 8) (.s 9) true) ∧
  decodeSlot 7 0x8400003800000005 = .ok (.loop g (.s 7) 5) ∧
  decodeSlot 7 0x8D0000000000002A = .ok (.trap g 42) ∧
  decodeSlot 7 0x8C83F80000000000 = .ok (.ckpt g false .z) ∧
  decodeSlot 7 0x8C00000004000002 = .ok (.mark g true 2) ∧
  decodeSlot 4 0xA00414000000001F = .ok (.exp2 g (.tile 2) (.tile 0) 0 31)

/-- R30 to R32, R44, R96: a step of the core in focus runs the instruction its bundle holds. The core runs in U mode between its
groups, nothing is due and no breakpoint fires, its instruction store is resident, and the 64 bytes at its PC hold one slot that
decodes to `i`, closed by its stop bit, the slots before it and behind it being canonical no-operations. The bundle is fetched;
then the group is [i], and where its checks pass the step is exec of `i` at that state, the group marked as committing, and then
the end of the cycle. -/
def Obligations.StepRunsDecodedInstruction : Prop :=
  ∀ (s : State) (i : Instr) (p : Nat),
    let c := s.cur
    let x := s.core c
    let w := BitVec.ofNat 512 (readNat s (.store c) x.ctx.seq.pc 64)
    s.power = true → s.agenda = [] → s.status.hot = false → c < 256 → x.act = .running → x.reportDue = none →
    breakpointHit x 0 = false → breakpointHit x 1 = false → x.eretReq = false → x.ctx.nops = 0 → x.ctx.seq.halt = false →
    x.ckpt = none → x.yielding = none → x.ctx.seq.grp = 0 → x.ctx.seq.fetched = none → p < 8 → decodeSlot p (slotOf w p) = .ok i → (slotOf w p).getLsbD 63 = true →
    (∀ q < 8, q ≠ p → decodeSlot q (slotOf w q) = .nop) →
    let b := fetchBundle s c
    (x.fetchFault = none → (b.core c).ctx.seq.fetched = some w) ∧ nextGroup b c = ([i], true) ∧
    (fetchVerdict b c = .go →
      let running := (release (mxStart b c) c [i]).modCore c fun x => { x with committing := true }
      (∀ t, exec i running = .next t → step s =
        .next (cycleEnd (t.modCore c fun x => { (x.endCycle true (isTransfer i)) with committing := false, hold := none }) c)) ∧
      (∀ f, exec i running = .fault f → step s = .fault f)) ∧
    (∀ h, fetchVerdict b c = .trap h → step s = .next (freeze b c h false x.ctx.scyc)) ∧
    (∀ r, fetchVerdict b c = .hold r → step s = .next (holdCycle b c r [i]))

/-- R116, R436: without power nothing runs but a module reset. With power every instruction and every event answers a next state,
and no step is ever refused. That exec and step end in the fault noPower without it is the model's reading
(notes/assumptions/77.md). -/
def Obligations.PowerAndSteps : Prop :=
  ((∀ (s : State) (i : Instr), s.power = false → (∀ stages, i ≠ .moduleReset stages) → exec i s = .fault .noPower) ∧
  (∀ s : State, s.power = false → s.agenda = [] → step s = .fault .noPower)) ∧
  ((∀ (s : State) (i : Instr), s.power = true → ∃ t, exec i s = .next t) ∧
  (∀ (s : State) (r : Refusal), step s ≠ .refused r))

/-- R30: a slot with a false guard, once it issues, does nothing: only its operation number is used up. A transfer still marks its
two delay slots (R98). R44: a slot instruction whose group has not passed its checks takes the trap they find, before any effect:
the core freezes with that cause (R382) at its schedule cycle. R34: a slot instruction whose group must wait has no effect: its
core counts one clock of the hold, and of all the machine outside that core only a domain's arrival at a SYNCD may change. -/
def Obligations.IssueWithoutEffect : Prop :=
  (∀ (s : State) (i : Instr), (slotInfo i).isSome = true → Issues s i → s.ctx.guard (guardOf i) = false →
    exec i s = .next (used (if isTransfer i then markDelay (issued s i) else issued s i))) ∧
  (∀ (s : State) (i : Instr) (h : Held), (slotInfo i).isSome = true → s.power = true → s.me.committing = false →
    loneVerdict s i = .trap h → exec i s = .next (freeze s s.cur h false s.ctx.scyc)) ∧
  (∀ (s : State) (i : Instr) (r : Nat), (slotInfo i).isSome = true → s.power = true → s.me.committing = false → s.cur < 256 →
    loneVerdict s i = .hold r → (∀ g e d lv, i ≠ .syncd g e d lv) →
    ∃ t, exec i s = .next t ∧ SameBytes s t ∧ t.me.hold = some ⟨r, (s.me.hold.map (·.clocks)).getD 0 + 1⟩ ∧
      t.ctx = s.ctx ∧ t.nextId = s.nextId ∧ ∀ k, k ≠ s.cur → t.core k = s.core k)

/-- R34, R41 to R44, R115, R118: when a scalar instruction issues. In U mode, outside delay slots, in a cycle that refreshes no
bank, with no expired or torn source, no source that is a bypass register, and nothing of the core's engines pending, a
well-formed instruction of the S class passes every check; HADV also needs a format it knows. -/
def Obligations.ScalarInstructionsIssue : Prop :=
  ∀ (s : State) (i : Instr) (f : SlotInfo), isScalarClass i = true → slotInfo i = some f → i.wf = true → s.cur < 256 →
    s.me.mode = .u → s.ctx.seq.dsc = 0 → s.ctx.scyc.toNat % 64 ≠ 0 → s.ctx.afl.getLsbD 18 = false →
    (∀ p ∈ f.srcs, isByp p = false) → (∀ r : Fin 64, vget s.ctx.eph r.val none = none) →
    s.me.mx = none → s.me.mxq = [] → s.me.tm = [] → s.me.rowRun = none → s.me.ag = [] → (∀ k < 8, (s.cellar k).reqs = []) →
    (∀ u g d a b n, i = .hadv u g d a b n → (Handle.fmt (s.ctx.handle (hOf a))).isSome = true) →
    loneVerdict s i = .go

/-- The frame of issue: whatever a slot instruction does when it issues, with its guard true or false, the scalar registers and
their ephemeral copies, the predicates, the handles, the bypass registers, the norms, the directions, SCYC, AFTE and every byte of
memory stay as they were, and so does every other core: results land later (R32). TRAP, BKPT and ERET, which leave the context,
and CKPT and SYNCD are not meant. -/
def Obligations.IssueLeavesRegisters : Prop :=
  ∀ (s t : State) (i : Instr), (slotInfo i).isSome = true → Issues s i → s.cur < 256 →
    (∀ g n, i ≠ .trap g n) → (∀ g n, i ≠ .bkpt g n) → (∀ g, i ≠ .eret g) → (∀ g e d, i ≠ .ckpt g e d) → (∀ g e d l, i ≠ .syncd g e d l) →
    exec i s = .next t →
    t.ctx.s = s.ctx.s ∧ t.ctx.eph = s.ctx.eph ∧ t.ctx.p = s.ctx.p ∧ t.ctx.h = s.ctx.h ∧ t.ctx.byp = s.ctx.byp ∧
      t.ctx.norms = s.ctx.norms ∧ t.ctx.dirs = s.ctx.dirs ∧ t.ctx.scyc = s.ctx.scyc ∧ t.ctx.afte = s.ctx.afte ∧
      t.me.mode = s.me.mode ∧ SameBytes s t ∧ t.nextId = s.nextId + 1 ∧ ∀ k, k ≠ s.cur → t.core k = s.core k

/-- The frame of the S class: an S-class instruction that acts puts one result in flight and changes nothing else but its core's
hold, trace unit and AFL (R118). The result writes only the ports of R42's destinations and the slot's own bypass register. -/
def Obligations.ScalarFrame : Prop :=
  ∀ (s : State) (i : Instr) (f : SlotInfo), isScalarClass i = true → slotInfo i = some f → i.wf = true → Acts s i → s.cur < 256 →
    ∃ (t : State) (r : Flight) (a : Word), exec i s = .next t ∧
      t.ctx = { s.ctx with flights := s.ctx.flights ++ [r], afl := a } ∧
      { t.me with ctx := s.ctx, hold := s.me.hold, trace := s.me.trace } = s.me ∧
      (∀ k, k ≠ s.cur → t.core k = s.core k) ∧ SameBytes s t ∧
      { t with cores := s.cores, nextId := s.nextId } = s ∧
      (a = s.ctx.afl ∨ a = s.ctx.afl ||| 0x80) ∧ r.id = s.nextId ∧ r.unit = f.unit ∧ r.slot = f.pos ∧
      (∀ w ∈ r.wrs, match w with
        | .scalar n _ => ∃ k : Fin 64, f.dsts.contains (.s k) = true ∧ n = k.val
        | .eph n _ => ∃ k : Fin 64, f.dsts.contains (.s k) = true ∧ n = k.val
        | .pred n _ => ∃ k : Fin 8, f.dsts.contains (.p k) = true ∧ n = k.val
        | .handle n _ => ∃ k : Fin 32, f.dsts.contains (.h k) = true ∧ n = k.val
        | .byp n _ => n = f.unit.num
        | _ => False)

/-- R32, R36, R117: a result lands. Where one flight of a core is due and it carries a scalar result for s`r`, the landing puts
the value in s`r` (an ephemeral copy with 48 cycles of life if E is 1) and in the unit's bypass register, and leaves every other
register and the other flights as they were. R33: of two results for one port that land in the same cycle, that of the
later-issued group remains, for a register and for a bypass register alike, however the flights are listed. R79, R80: a landing
result's flags are ORed into AFL; where AFTE enables some of them, the arithmetic trap 0x060 + f of each is due at the end of the
cycle, with the result's slot in its mask; the lowest freezes the core. That the traps of the others are due as well is the
model's reading (notes/assumptions/100.md). -/
def Obligations.ResultLands : Prop :=
  (∀ (s : State) (c : Nat) (l m : List Flight) (f : Flight) (r : Fin 64) (e : Bool) (v : Word),
    s.power = true → c < 256 → (s.core c).ctx.flights = l ++ f :: m → f.rem = 0 → (∀ g ∈ l ++ m, g.rem ≠ 0) →
    f.unit.num < 10 → f.unit ≠ .va → f.unit ≠ .sf → f.flags = 0 → f.wrs = destWrs f.unit e (.s r) v →
    ∃ t, exec (.resultLanding c) s = .next t ∧
      (t.core c).ctx.scalar r.val = v ∧ (t.core c).ctx.bypass f.unit.num = v ∧ (t.core c).ctx.flights = l ++ m ∧
      vget (t.core c).ctx.eph r.val none = (if e then some ⟨v, 48⟩ else none) ∧
      (∀ k, k ≠ r.val → (t.core c).ctx.scalar k = (s.core c).ctx.scalar k) ∧
      (∀ k, k ≠ f.unit.num → (t.core c).ctx.bypass k = (s.core c).ctx.bypass k) ∧
      (t.core c).ctx.p = (s.core c).ctx.p ∧ (t.core c).ctx.h = (s.core c).ctx.h ∧ (t.core c).ctx.afl = (s.core c).ctx.afl ∧
      SameBytes s t ∧ ∀ k, k ≠ c → t.core k = s.core k) ∧
  (∀ (s : State) (c : Nat) (f g : Flight) (r : Fin 64) (v w : Word),
    s.power = true → c < 256 → ((s.core c).ctx.flights = [f, g] ∨ (s.core c).ctx.flights = [g, f]) → f.id < g.id →
    f.rem = 0 → g.rem = 0 → f.flags = 0 → g.flags = 0 → f.unit = g.unit → f.unit.num < 10 → f.unit ≠ .va → f.unit ≠ .sf →
    f.wrs = destWrs f.unit false (.s r) v → g.wrs = destWrs g.unit false (.s r) w →
    ∃ t, exec (.resultLanding c) s = .next t ∧ (t.core c).ctx.scalar r.val = w ∧ (t.core c).ctx.bypass f.unit.num = w) ∧
  (∀ (s : State) (c : Nat) (f : Flight),
    s.power = true → c < 256 → (s.core c).ctx.flights = [f] → f.rem = 0 → f.wrs = [] → f.unit ≠ .va → f.unit ≠ .sf →
    f.flags ≠ 0 → (s.core c).due = [] →
    ∃ t, exec (.resultLanding c) s = .next t ∧ (t.core c).ctx.afl = (s.core c).ctx.afl ||| f.flags.setWidth 64 ∧
      ((∀ i < 7, f.flags.getLsbD i = true → (s.core c).ctx.afte.getLsbD i = false) → (t.core c).due = []) ∧
      (∀ i < 7, f.flags.getLsbD i = true → (s.core c).ctx.afte.getLsbD i = true →
        (∀ j < i, f.flags.getLsbD j = true → (s.core c).ctx.afte.getLsbD j = false) →
        lowestHeld (t.core c).due = some ⟨0x060 + i, 1#8 <<< f.slot, 0, 0, 0, false, false⟩ ∧ (t.core c).held = (s.core c).held ∧
        ∀ j < 7, f.flags.getLsbD j = true → (s.core c).ctx.afte.getLsbD j = true →
          (⟨0x060 + j, 1#8 <<< f.slot, 0, 0, 0, false, false⟩ : Held) ∈ (t.core c).due))

/-- R35, R94, R117, R120, R121, R113: what a source port gives: a gain-cell value, an ephemeral copy while it lives and 0 once it
has expired, a bypass register, a predicate as 0 or 1 with p0 true, the index of a live loop and 0 beyond the stack, the limit of
the innermost loop and 0 without one, and 0 for z. R114, R117: a schedule cycle passes in U mode: SCYC rises by 1, every result is
one cycle nearer, every ephemeral copy has one cycle of life less. In S mode SCYC and the lives stand still (R383) while results
still come nearer. -/
def Obligations.SourcePortsAndScheduleCycle : Prop :=
  (∀ (x : Ctx) (r : Fin 64) (u : Fin 10) (p : Fin 8) (j : Fin 6) (v : Word) (n : Nat),
    (vget x.eph r.val none = none → x.val (.s r) = vget x.s r.val 0) ∧
    (vget x.eph r.val none = some ⟨v, n + 1⟩ → x.val (.s r) = v) ∧
    (vget x.eph r.val none = some ⟨v, 0⟩ → x.val (.s r) = 0) ∧
    x.val (.byp u) = vget x.byp u.val 0 ∧ x.val (.p 0) = 1 ∧
    (p ≠ 0 → x.val (.p p) = if x.p.getLsbD p.val then 1 else 0) ∧
    (j.val < x.seq.depth → x.val (.l j) = (vget x.seq.loops j.val LoopEntry.zero).index.setWidth 64) ∧
    (x.seq.depth ≤ j.val → x.val (.l j) = 0) ∧
    (0 < x.seq.depth → x.val .lc = (vget x.seq.loops 0 LoopEntry.zero).limit.setWidth 64) ∧ (x.seq.depth = 0 → x.val .lc = 0) ∧
    x.val .z = 0) ∧
  (∀ x : Core,
    (x.advance.ctx.flights = x.ctx.flights.map fun f => { f with rem := f.rem - 1 }) ∧
    (x.mode = .u → x.advance.ctx.scyc = x.ctx.scyc + 1 ∧
      ∀ r : Fin 64, vget x.advance.ctx.eph r.val none = (vget x.ctx.eph r.val none).map fun e => { e with life := e.life - 1 }) ∧
    (x.mode = .s → x.advance.ctx.scyc = x.ctx.scyc ∧ x.advance.ctx.eph = x.ctx.eph))

/-- EPHEMERAL_EXPIRY, BANK_REFRESH, GROUP_WAIT_END (R34, R115, R117): an ephemeral copy whose life has ended is gone and its
register stays expired; a bank's refresh holds the group that would read it for one clock; and a wait whose group may go on ends:
both leave every register and every byte as they were. -/
def Obligations.CoreTimingEvents : Prop :=
  ∀ (s : State) (c n : Nat) (e : Eph), s.power = true → c < 256 → n < 64 →
    (vget (s.core c).ctx.eph n none = some e → e.life = 0 →
      ∃ t, exec (.ephemeralExpiry c n) s = .next t ∧ vget (t.core c).ctx.eph n none = some ⟨0, 0⟩ ∧
        (t.core c).ctx.scalar n = 0 ∧ (∀ k, k ≠ n → (t.core c).ctx.scalar k = (s.core c).ctx.scalar k) ∧ SameBytes s t) ∧
    ((s.core c).issues = true → (s.core c).mode = .u → fetchVerdict s c = .hold 1 →
      ∃ t, exec (.bankRefresh c) s = .next t ∧ (t.core c).hold = some ⟨1, ((s.core c).hold.map (·.clocks)).getD 0 + 1⟩ ∧
        (t.core c).ctx = (s.core c).ctx ∧ (t.core c).sclk = (s.core c).sclk + 1 ∧ SameBytes s t ∧ ∀ k, k ≠ c → t.core k = s.core k) ∧
    (∀ h : Hold, (s.core c).issues = true → (s.core c).hold = some h → h.reason ≠ 0 → fetchVerdict s c = .go →
      ∃ t, exec (.groupWaitEnd c) s = .next t ∧ (t.core c).hold = some ⟨0, 0⟩ ∧ (t.core c).ctx = (s.core c).ctx ∧ SameBytes s t ∧
        ∀ k, k ≠ c → t.core k = s.core k)

/-! ## Reset and memory -/

/-- What the spec says of reset: SCYC, EPHST, AFL and TVEC are 0 and AFTE enables the expired-register trap; every tile is void,
every norm is −infinity, every reel entry is invalid, PCFG holds its reset value, every bobbin is unconfigured; p0 reads 1; every
core is in U mode with its integrity unit on; no partition is set up and no queue is enabled; the clock is at 1.4 GHz. Memory is
in its canonical form. A free core in `act`, no operation outstanding, no flight and an empty net are the model's
(notes/assumptions/1.md). -/
def Obligations.ResetState : Prop :=
  let s := State.reset
  s.memOk = true ∧ s.power = true ∧ s.status.clk = 14 ∧ s.status.hot = false ∧ s.net = [] ∧
  (∀ p < 8, (s.part p).set = false) ∧ (∀ q < 16, (s.queue q).en = false) ∧
  ∀ c < 256,
    let x := s.core c
    x.mode = .u ∧ x.act = .free ∧ x.inten = true ∧ x.tvec = 0 ∧ x.stepst = 0 ∧ x.outst = 0 ∧ x.pib = [] ∧
    x.ctx.scyc = 0 ∧ x.ctx.ephst = 0 ∧ x.ctx.atag = 0 ∧ x.ctx.afl = 0 ∧ x.ctx.afte = 0x80 ∧ x.ctx.seq.depth = 0 ∧
    x.ctx.pcfg = 0x7C007C00FC00FC00 ∧ x.ctx.val (.p 0) = 1 ∧ x.ctx.flights = [] ∧
    (∀ j < 16, vget x.ctx.norms j 0 = 0xFF800000 ∧ (x.ctx.bobbin j).v = false) ∧ (∀ e < 4096, vget x.ctx.reel e 0 = 0x8000) ∧
    ∀ f < 32, x.ctx.flagVal f = 0

/-- Every step keeps the memory and the map of discarded lines in their canonical forms: equal memories are equal lists (the
model's own representation, notes/assumptions/2.md). -/
def Obligations.StepsKeepMemory : Prop :=
  ∀ s t : State, s.memOk = true → step s = .next t → t.memOk = true

/-- R219, R220: the bank hash loses nothing: under any keys, two offsets of the spaces share a byte only if they are the same
offset of the same space. R237, R238, R241, R242: whatever a range cache holds, translation answers only an address in a channel
or the host window of the partition, only for a canonical virtual address, and for a write only on a page with W set. -/
def Obligations.AddressesAreDistinct : Prop :=
  (∀ (s : State) (sp sp' : Space) (a a' : Nat), spaceExists sp → spaceExists sp' → a < sp.size → a' < sp'.size →
    physAddr s sp a = physAddr s sp' a' → sp = sp' ∧ a = a') ∧
  (∀ (s : State) (c p va pa n : Nat) (wr w : Bool), xlate s c p va wr = .ok pa w n →
    ownedPa (s.part p) pa = true ∧ canonical va = true ∧ (wr = true → w = true))

/-- R10, R226: a byte written is read back, and every other byte of every space reads as it did, whatever lines are discarded.
R10: a number written at an offset is read back modulo 2^(8n), its least significant byte at the lowest address; bytes outside the
n written read as before. -/
def Obligations.MemoryReadsBack : Prop :=
  (∀ (s : State) (sp sp' : Space) (a a' : Nat) (v : Byte), s.memOk = true → spaceExists sp → spaceExists sp' → a < sp.size → a' < sp'.size →
    readByte (writeByte s sp a v) sp' a' = if sp' = sp ∧ a' = a then v else readByte s sp' a') ∧
  (∀ (s : State) (sp : Space) (a n v : Nat), s.memOk = true → spaceExists sp → a + n ≤ sp.size →
    readNat (writeNat s sp a n v) sp a n = v % 2 ^ (8 * n) ∧
    (0 < n → (readByte (writeNat s sp a n v) sp a).toNat = v % 256) ∧
    ∀ (sp' : Space) (b : Nat), spaceExists sp' → b < sp'.size → ¬(sp' = sp ∧ a ≤ b ∧ b < a + n) →
      readByte (writeNat s sp a n v) sp' b = readByte s sp' b)

/-! ## The S class -/

/-- R127, R128: sums, differences and products, taken exactly and then modulo 2^64; MULH and MULHU keep bits [127:64]. R127:
quotients round toward zero, remainders are A − B × quotient, and B = 0 has its own results. −2^63 ÷ −1 wraps to −2^63, with
remainder 0. R127: signed and unsigned minimum and maximum. -/
def Obligations.IntegerResults : Prop :=
  (∀ (s : State) (u : Alu) (g : Guard) (e : Bool) (d a b : Port) (imm : BitVec 27),
    let x := s.ctx.val a
    let y := s.ctx.val b
    (Acts s (.add u g e d a b) →
      exec (.add u g e d a b) s = .next (landing s (.add u g e d a b) u 1 e d (BitVec.ofInt 64 (x.toInt + y.toInt)) 0)) ∧
    (Acts s (.sub u g e d a b) →
      exec (.sub u g e d a b) s = .next (landing s (.sub u g e d a b) u 1 e d (BitVec.ofInt 64 (x.toInt - y.toInt)) 0)) ∧
    (Acts s (.addi u g d a imm) →
      exec (.addi u g d a imm) s = .next (landing s (.addi u g d a imm) u 1 false d (BitVec.ofInt 64 (x.toInt + imm.toInt)) 0)) ∧
    (Acts s (.mul u g e d a b) →
      exec (.mul u g e d a b) s = .next (landing s (.mul u g e d a b) u 3 e d (BitVec.ofInt 64 (x.toInt * y.toInt)) 0)) ∧
    (Acts s (.mulh u g e d a b) →
      exec (.mulh u g e d a b) s = .next (landing s (.mulh u g e d a b) u 3 e d (BitVec.ofInt 64 (x.toInt * y.toInt / 2 ^ 64)) 0)) ∧
    (Acts s (.mulhu u g e d a b) →
      exec (.mulhu u g e d a b) s =
        .next (landing s (.mulhu u g e d a b) u 3 e d (BitVec.ofNat 64 (x.toNat * y.toNat / 2 ^ 64)) 0))) ∧
  (∀ (s : State) (u : Alu) (g : Guard) (e : Bool) (d a b : Port),
    let x := s.ctx.val a
    let y := s.ctx.val b
    (Acts s (.div u g e d a b) →
      exec (.div u g e d a b) s = .next (landing s (.div u g e d a b) u 18 e d
        (if y = 0 then BitVec.allOnes 64 else BitVec.ofInt 64 (x.toInt.tdiv y.toInt)) 0)) ∧
    (Acts s (.divu u g e d a b) →
      exec (.divu u g e d a b) s = .next (landing s (.divu u g e d a b) u 18 e d
        (if y = 0 then BitVec.allOnes 64 else BitVec.ofNat 64 (x.toNat / y.toNat)) 0)) ∧
    (Acts s (.rem u g e d a b) →
      exec (.rem u g e d a b) s = .next (landing s (.rem u g e d a b) u 18 e d
        (if y = 0 then x else BitVec.ofInt 64 (x.toInt - y.toInt * x.toInt.tdiv y.toInt)) 0)) ∧
    (Acts s (.remu u g e d a b) →
      exec (.remu u g e d a b) s = .next (landing s (.remu u g e d a b) u 18 e d
        (if y = 0 then x else BitVec.ofNat 64 (x.toNat % y.toNat)) 0))) ∧
  (∀ (s : State) (u : Alu) (g : Guard) (e : Bool) (d a b : Port),
    let x := s.ctx.val a
    let y := s.ctx.val b
    (Acts s (.min u g e d a b) →
      exec (.min u g e d a b) s = .next (landing s (.min u g e d a b) u 1 e d (BitVec.ofInt 64 (min x.toInt y.toInt)) 0)) ∧
    (Acts s (.max u g e d a b) →
      exec (.max u g e d a b) s = .next (landing s (.max u g e d a b) u 1 e d (BitVec.ofInt 64 (max x.toInt y.toInt)) 0)) ∧
    (Acts s (.minu u g e d a b) →
      exec (.minu u g e d a b) s = .next (landing s (.minu u g e d a b) u 1 e d (BitVec.ofNat 64 (min x.toNat y.toNat)) 0)) ∧
    (Acts s (.maxu u g e d a b) →
      exec (.maxu u g e d a b) s = .next (landing s (.maxu u g e d a b) u 1 e d (BitVec.ofNat 64 (max x.toNat y.toNat)) 0)))

/-- R127: the logical instructions bit by bit, and shifts and rotates by B[5:0] as powers of two; bits [63:6] of B are ignored.
R127: the one-source instructions. The result of CLZ is the number n of leading zeros: the bits above 63 − n are zero and, below
64, bit 63 − n is one; CTZ likewise from bit 0; POPC counts the one bits; BREV turns bit i into bit 63 − i. R129: EXT's field
A[POS + LEN − 1 : POS], zero-extended or, with .sx, sign-extended from its top bit; INS puts B[LEN − 1 : 0] there. -/
def Obligations.BitwiseResults : Prop :=
  (∀ (s : State) (u : Alu) (g : Guard) (e : Bool) (d a b : Port),
    let x := s.ctx.val a
    let y := s.ctx.val b
    let n := y.toNat % 64
    (Acts s (.and u g e d a b) → exec (.and u g e d a b) s = .next (landing s (.and u g e d a b) u 1 e d (x &&& y) 0)) ∧
    (Acts s (.andn u g e d a b) → exec (.andn u g e d a b) s = .next (landing s (.andn u g e d a b) u 1 e d (x &&& ~~~y) 0)) ∧
    (Acts s (.or u g e d a b) → exec (.or u g e d a b) s = .next (landing s (.or u g e d a b) u 1 e d (x ||| y) 0)) ∧
    (Acts s (.xor u g e d a b) → exec (.xor u g e d a b) s = .next (landing s (.xor u g e d a b) u 1 e d (x ^^^ y) 0)) ∧
    (Acts s (.shl u g e d a b) →
      exec (.shl u g e d a b) s = .next (landing s (.shl u g e d a b) u 1 e d (BitVec.ofNat 64 (x.toNat * 2 ^ n)) 0)) ∧
    (Acts s (.shr u g e d a b) →
      exec (.shr u g e d a b) s = .next (landing s (.shr u g e d a b) u 1 e d (BitVec.ofNat 64 (x.toNat / 2 ^ n)) 0)) ∧
    (Acts s (.sar u g e d a b) →
      exec (.sar u g e d a b) s = .next (landing s (.sar u g e d a b) u 1 e d (BitVec.ofInt 64 (x.toInt / 2 ^ n)) 0)) ∧
    (Acts s (.rol u g e d a b) →
      exec (.rol u g e d a b) s = .next (landing s (.rol u g e d a b) u 1 e d
        (BitVec.ofNat 64 (x.toNat * 2 ^ n + x.toNat / 2 ^ (64 - n))) 0))) ∧
  (∀ (s : State) (u : Alu) (g : Guard) (e : Bool) (d a : Port),
    let x := s.ctx.val a
    (Acts s (.clz u g e d a) → ∃ n : Nat, n ≤ 64 ∧ (∀ i, 64 ≤ i + n → x.getLsbD i = false) ∧ (n < 64 → x.getLsbD (63 - n) = true) ∧
      exec (.clz u g e d a) s = .next (landing s (.clz u g e d a) u 1 e d (BitVec.ofNat 64 n) 0)) ∧
    (Acts s (.ctz u g e d a) → ∃ n : Nat, n ≤ 64 ∧ (∀ i, i < n → x.getLsbD i = false) ∧ (n < 64 → x.getLsbD n = true) ∧
      exec (.ctz u g e d a) s = .next (landing s (.ctz u g e d a) u 1 e d (BitVec.ofNat 64 n) 0)) ∧
    (Acts s (.popc u g e d a) → exec (.popc u g e d a) s =
      .next (landing s (.popc u g e d a) u 1 e d (BitVec.ofNat 64 ((List.range 64).filter fun i => x.getLsbD i).length) 0)) ∧
    (Acts s (.brev u g e d a) → ∃ y : Word, (∀ i < 64, y.getLsbD i = x.getLsbD (63 - i)) ∧
      exec (.brev u g e d a) s = .next (landing s (.brev u g e d a) u 1 e d y 0)) ∧
    (Acts s (.mov u g e d a) → exec (.mov u g e d a) s = .next (landing s (.mov u g e d a) u 1 e d x 0))) ∧
  (∀ (s : State) (u : Alu) (g : Guard) (e sx : Bool) (d a b : Port) (bpos len1 : BitVec 6),
    bpos.toNat + len1.toNat + 1 ≤ 64 →
    let x := s.ctx.val a
    let pos := bpos.toNat
    let len := len1.toNat + 1
    (Acts s (.ext u g e d a sx bpos len1) → ∃ y : Word,
      (∀ i < 64, y.getLsbD i = if i < len then x.getLsbD (pos + i) else sx && x.getLsbD (pos + len - 1)) ∧
      exec (.ext u g e d a sx bpos len1) s = .next (landing s (.ext u g e d a sx bpos len1) u 1 e d y 0)) ∧
    (Acts s (.ins u g e d a b bpos len1) → ∃ y : Word,
      (∀ i < 64, y.getLsbD i = if pos ≤ i ∧ i < pos + len then (s.ctx.val b).getLsbD (i - pos) else x.getLsbD i) ∧
      exec (.ins u g e d a b bpos len1) s = .next (landing s (.ins u g e d a b bpos len1) u 1 e d y 0)))

/-- R130, whole: SEL is opcode 0x26 with an integer source C, and its result, with latency 1, is A where C is not 0, else B. -/
def Obligations.SelResult : Prop :=
  ∀ (s : State) (u : Alu) (g : Guard) (e : Bool) (d a b c : Port),
    (∀ stop p w, encodeSlot stop (.sel u g e d a b c) = some (p, w) → w.extractLsb' 55 8 = 0x26#8 ∧ w.extractLsb' 18 8 = c.toByte) ∧
    ((Instr.sel u g e d a b c).wf = true → okIsrc c = true) ∧
    (Acts s (.sel u g e d a b c) → exec (.sel u g e d a b c) s =
      .next (landing s (.sel u g e d a b c) u 1 e d (if s.ctx.val c ≠ 0 then s.ctx.val a else s.ctx.val b) 0))

/-- R131, R132: CMP writes 1 where its condition holds and 0 where it does not; LI writes its sign-extended immediate and LIH puts
37 bits above D[26:0]. R133: PSET tests A against 0, PLOG looks its two predicates up in a truth table at 2·A + B; both write a
predicate after one cycle and no bypass register. -/
def Obligations.CompareAndPredicateResults : Prop :=
  (∀ (s : State) (u : Alu) (g : Guard) (e : Bool) (d a b : Port) (lo : BitVec 27) (hi : BitVec 37),
    let x := s.ctx.val a
    let y := s.ctx.val b
    let cmp := fun (c : CmpCond) (p : Prop) => Acts s (.cmp u g e d a b c) →
      ∃ v : Word, (p → v = 1) ∧ (¬p → v = 0) ∧
        exec (.cmp u g e d a b c) s = .next (landing s (.cmp u g e d a b c) u 1 e d v 0)
    cmp .eq (x = y) ∧ cmp .ne (x ≠ y) ∧ cmp .lt (x.toInt < y.toInt) ∧ cmp .ge (x.toInt ≥ y.toInt) ∧
    cmp .ltu (x.toNat < y.toNat) ∧ cmp .geu (x.toNat ≥ y.toNat) ∧ cmp .gt (x.toInt > y.toInt) ∧ cmp .le (x.toInt ≤ y.toInt) ∧
    cmp .gtu (x.toNat > y.toNat) ∧ cmp .leu (x.toNat ≤ y.toNat) ∧
    (Acts s (.li u g d lo) → exec (.li u g d lo) s = .next (landing s (.li u g d lo) u 1 false d (BitVec.ofInt 64 lo.toInt) 0)) ∧
    (Acts s (.lih u g d hi) → exec (.lih u g d hi) s = .next (landing s (.lih u g d hi) u 1 false d
      (BitVec.ofNat 64 (hi.toNat * 2 ^ 27 + (s.ctx.val d).toNat % 2 ^ 27)) 0))) ∧
  (∀ (s : State) (u : Alu) (g : Guard) (r : Fin 8) (a : Port) (pa pb : Fin 8) (tt : BitVec 4),
    (Acts s (.pset u g (.p r) a) →
      exec (.pset u g (.p r) a) s = .next (predLanding s (.pset u g (.p r) a) u r (s.ctx.val a != 0))) ∧
    (Acts s (.plog u g (.p r) (.p pa) (.p pb) tt) →
      exec (.plog u g (.p r) (.p pa) (.p pb) tt) s = .next (predLanding s (.plog u g (.p r) (.p pa) (.p pb) tt) u r
        (tt.getLsbD ((if s.ctx.pred pa.val then 2 else 0) + (if s.ctx.pred pb.val then 1 else 0))))))

/-- R134: the floating-point instructions. Operands are unpacked from their formats (.s from bits [31:0]), the exact result is
rounded once under the rounding code, flags land with the result, and the latencies are the table's. -/
def Obligations.FloatResults : Prop :=
  ∀ (s : State) (u : Alu) (g : Guard) (e : Bool) (d a b c : Port) (f : SD) (rm : Rnd) (fc : FCond) (dst src : Fmt),
    let x := fpVal f (s.ctx.val a)
    let y := fpVal f (s.ctx.val b)
    let z := fpVal f (s.ctx.val c)
    let lands := fun (i : Instr) (lat : Nat) (r : Word × FlagSet) => Acts s i → exec i s = .next (landing s i u lat e d r.1 r.2)
    lands (.fadd u g e d a b f rm) 4 (fpRound f rm (FV.add rm x y)) ∧
    lands (.fsub u g e d a b f rm) 4 (fpRound f rm (FV.sub rm x y)) ∧
    lands (.fmul u g e d a b f rm) 4 (fpRound f rm (FV.mul x y)) ∧
    lands (.ffma u g e d a b c f rm) 5 (fpRound f rm (FV.fma rm x y z)) ∧
    lands (.fdiv u g e d a b f rm) (if f = .s then 12 else 22)
      ((fpRound f rm (FV.div x y).1).1, (fpRound f rm (FV.div x y).1).2 ||| (FV.div x y).2) ∧
    lands (.fsqrt u g e d a f rm) (if f = .s then 12 else 22) (fpRound f rm (FV.sqrt x)) ∧
    lands (.fmin u g e d a b f) 2 (fpMinMax f false (s.ctx.val a) (s.ctx.val b)) ∧
    lands (.fmax u g e d a b f) 2 (fpMinMax f true (s.ctx.val a) (s.ctx.val b)) ∧
    lands (.fcmp u g e d a b f fc) 2 (if (fcmpHolds fc x y).1 then 1 else 0, (fcmpHolds fc x y).2) ∧
    lands (.fcvt u g e d a dst rm src) 3 (fcvtWord dst src rm (s.ctx.val a))

/-- R135: HGET reads a field of a handle, HSET writes one and clears the reserved bits, HADV moves BASE and NIB by B elements; the
handle lands after 1, 1 and 2 cycles and HSET and HADV write no bypass register. R135: what HGET reads of a handle and HADV makes
of one whose elements are at least a byte wide: FMT and the strides read at their places, and BASE moves by B times the stride in
bytes, modulo 2^64, every other bit as it was. -/
def Obligations.HandleResults : Prop :=
  (∀ (s : State) (u : Alu) (g : Guard) (e : Bool) (d b : Port) (rd ra : Fin 32) (sl : BitVec 5) (dim : BitVec 2),
    let h := s.ctx.handle ra.val
    (Acts s (.hget u g e d (.h ra) sl) → exec (.hget u g e d (.h ra) sl) s =
      .next (landing s (.hget u g e d (.h ra) sl) u 1 e d (hgetWord h sl.toNat) 0)) ∧
    (Acts s (.hset u g (.h rd) (.h ra) b sl) → exec (.hset u g (.h rd) (.h ra) b sl) s =
      .next (acted s (.hset u g (.h rd) (.h ra) b sl) fun t =>
        t.launch u.unit u.pos 1 0#8 [.handle rd.val (hsetHandle h sl.toNat (s.ctx.val b))])) ∧
    (Acts s (.hadv u g (.h rd) (.h ra) b dim) → exec (.hadv u g (.h rd) (.h ra) b dim) s =
      .next (acted s (.hadv u g (.h rd) (.h ra) b dim) fun t =>
        t.launch u.unit u.pos 2 0#8 [.handle rd.val (Handle.advance h (s.ctx.val b).toInt dim.toNat)]))) ∧
  (∀ (h : HandleBits) (b : Int) (dim : Nat), dim ≤ Handle.rank h →
    hgetWord h 4 = (h.extractLsb' 64 4).setWidth 64 ∧ hgetWord h 12 = (h.extractLsb' 96 24).setWidth 64 ∧
    hgetWord h 16 = (h.extractLsb' 121 29).signExtend 64 ∧ hgetWord h 18 = (h.extractLsb' 211 29).signExtend 64 ∧
    (Handle.width h ≥ 8 →
      (Handle.advance h b dim).extractLsb' 0 64 =
        BitVec.ofInt 64 (Handle.base h + b * Handle.stride h dim * (Handle.width h / 8 : Nat)) ∧
      ∀ i, 64 ≤ i → (Handle.advance h b dim).getLsbD i = h.getLsbD i))

/-! ## The sequencer and system registers -/

/-- R95's stack moves: a push shifts every entry one place outward and writes the new entry into l0, a pop shifts every entry one
place inward and clears l5. R98, R100, R105: the step after the last group of a bundle that holds no transfer and lies at bundle
index N. A transfer whose PDLY reaches 0 goes to PTGT; else, where N is not the end of the innermost loop, the next bundle
follows; where it is, the loop goes on at its start with its index raised while index + 1 is below the limit, and is popped at the
last iteration; a zero-count set-up passes over its body. No bundle's end adds to the depth. -/
def Obligations.SequencerSteps : Prop :=
  (∀ (q : Seq) (e : LoopEntry),
    (vget (q.push e).loops 0 LoopEntry.zero = e ∧ (q.push e).depth = q.depth + 1 ∧
      ∀ j < 5, vget (q.push e).loops (j + 1) LoopEntry.zero = vget q.loops j LoopEntry.zero) ∧
    ((q.pop).depth = q.depth - 1 ∧ vget (q.pop).loops 5 LoopEntry.zero = LoopEntry.zero ∧
      ∀ j < 5, vget (q.pop).loops j LoopEntry.zero = vget q.loops (j + 1) LoopEntry.zero)) ∧
  (∀ q : Seq, (∀ x : Bool, (q.bundleEnd x).depth ≤ q.depth) ∧ (q.halt = false →
    let n := q.pc / 64
    let l0 := vget q.loops 0 LoopEntry.zero
    (∀ x : Bool, q.skip ≠ 0 → (q.bundleEnd x).pc = q.pc + 64 * q.skip + 64) ∧
    (q.skip = 0 → q.pdly = 1 → q.pops = 0 → (q.bundleEnd false).pc = 64 * q.ptgt.toNat ∧ (q.bundleEnd false).pdly = 0) ∧
    (q.skip = 0 → q.pdly = 2 → q.depth = 0 → (q.bundleEnd false).pc = 64 * n + 64 ∧ (q.bundleEnd false).pdly = 1 ∧
      (q.bundleEnd false).ptgt = q.ptgt) ∧
    (q.skip = 0 → q.pdly = 0 → (q.depth = 0 ∨ l0.fin.toNat ≠ n) →
      (q.bundleEnd false).pc = 64 * n + 64 ∧ (q.bundleEnd false).loops = q.loops) ∧
    (q.skip = 0 → q.pdly = 0 → 0 < q.depth → l0.fin.toNat = n → l0.index.toNat + 1 < l0.limit.toNat →
      (q.bundleEnd false).pc = 64 * l0.start.toNat ∧ (q.bundleEnd false).depth = q.depth ∧
      vget (q.bundleEnd false).loops 0 LoopEntry.zero = { l0 with index := l0.index + 1 }) ∧
    (q.skip = 0 → q.pdly = 0 → q.depth = 1 → l0.fin.toNat = n → l0.limit.toNat ≤ l0.index.toNat + 1 →
      (q.bundleEnd false).pc = 64 * n + 64 ∧ (q.bundleEnd false).depth = 0 ∧
      vget (q.bundleEnd false).loops 0 LoopEntry.zero = vget q.loops 1 LoopEntry.zero)))

/-- R98, R99, R103, R104: the transfers. A taken one sets PTGT to the target, PDLY to 2 and DSC to 2; one not taken sets only DSC.
The target is `disp` bundles from the transfer's own or the byte address in A. CALL and JR land the address of the first bundle
after the delay slots in D after one cycle. R98, R104, R411, R413: RET is a taken transfer to the address in A; a trace unit that
is on and has call trace enabled also buffers a record, and nothing else of the core changes. R105 to R107: LOOP and LOOPL push an
entry of index 0, their count as limit, the next bundle as start and the bundle `e` on as end; with a count of 0 they push nothing
and the bundle after the body is next. LOOPX is a taken transfer past the end of loop n − 1 whose pops follow its delay slots. END
halts the fetch after its bundle and discards the loop stack. END's zeroed entries (notes/assumptions/15.md) and LOOPX's pops
after its delay slots (notes/assumptions/17.md) are the model's. A LOOP or LOOPL with a count acts at a depth below 6 alone. R54:
NOP owes its count of empty cycles, which follow its group; in each the core issues nothing, and its end lands what is due. -/
def Obligations.ControlFlowResults : Prop :=
  (∀ (s : State) (g : Guard) (d a : Port) (cond : BrCond) (disp : BitVec 27) (disp24 : BitVec 24) (n : Nat),
    let q := s.ctx.seq
    let taken := fun (t : Nat) (x : State) => x.modSeq fun q => { q with dsc := 2, ptgt := BitVec.ofNat 12 (t / 64), pdly := 2 }
    let link := fun (x : State) => x.result .br 7 1 false d (BitVec.ofNat 64 (q.pc + 192)) 0
    let v := s.ctx.val a
    let holds := match cond with
      | .eqz => v.toInt = 0 | .nez => v.toInt ≠ 0 | .ltz => v.toInt < 0 | .gez => 0 ≤ v.toInt | .lez => v.toInt ≤ 0 | .gtz => 0 < v.toInt
    (Acts s (.br g disp) → (n : Int) = q.pc + 64 * disp.toInt →
      exec (.br g disp) s = .next (acted s (.br g disp) (taken n))) ∧
    (Acts s (.brc g a cond disp24) → holds → (n : Int) = q.pc + 64 * disp24.toInt →
      exec (.brc g a cond disp24) s = .next (acted s (.brc g a cond disp24) (taken n))) ∧
    (Acts s (.brc g a cond disp24) → ¬holds →
      exec (.brc g a cond disp24) s = .next (acted s (.brc g a cond disp24) fun x => x.modSeq fun q => { q with dsc := 2 })) ∧
    (Acts s (.call g d disp) → (n : Int) = q.pc + 64 * disp.toInt →
      exec (.call g d disp) s = .next (acted s (.call g d disp) fun x => link (taken n x))) ∧
    (Acts s (.jr g d a) → exec (.jr g d a) s = .next (acted s (.jr g d a) fun x => link (taken v.toNat x)))) ∧
  (∀ (s : State) (g : Guard) (a : Port), Acts s (.ret g a) → s.cur < 256 →
    ∃ t, exec (.ret g a) s = .next t ∧ SameBytes s t ∧
      t.ctx.seq = { s.ctx.seq with dsc := 2, ptgt := BitVec.ofNat 12 ((s.ctx.val a).toNat / 64), pdly := 2 } ∧
      t.ctx.s = s.ctx.s ∧ t.ctx.p = s.ctx.p ∧ t.ctx.flights = s.ctx.flights ∧ ∀ k, k ≠ s.cur → t.core k = s.core k) ∧
  (∀ (s : State) (g : Guard) (a : Port) (e : BitVec 12) (n : BitVec 3),
    let q := s.ctx.seq
    let entry := fun (cnt : Nat) => (⟨0, BitVec.ofNat 20 cnt, BitVec.ofNat 12 (q.pc / 64 + 1), BitVec.ofNat 12 (q.pc / 64 + e.toNat)⟩ : LoopEntry)
    let setup := fun (cnt : Nat) (x : State) =>
      if cnt = 0 then x.modSeq fun q => { q with skip := e.toNat } else x.modSeq fun q => q.push (entry cnt)
    (Acts s (.loop g a e) → exec (.loop g a e) s = .next (acted s (.loop g a e) (setup (s.ctx.val a).toNat))) ∧
    (Acts s (.loopl g e) → exec (.loopl g e) s = .next (acted s (.loopl g e) (setup ((s.ctx.bypass 7).extractLsb' 16 16).toNat))) ∧
    (Acts s (.loopx g n) → exec (.loopx g n) s = .next (acted s (.loopx g n) fun x => x.modSeq fun q =>
      { q with dsc := 2, pdly := 2, pops := n.toNat,
               ptgt := BitVec.ofNat 12 ((vget q.loops (n.toNat - 1) LoopEntry.zero).fin.toNat + 1) })) ∧
    (Acts s (.fin g) → exec (.fin g) s = .next (acted s (.fin g) fun x => x.modSeq fun q =>
      { q with halt := true, loops := Vector.replicate 6 LoopEntry.zero, depth := 0 })) ∧
    (s.me.committing = false → Acts s (.loop g a e) → (s.ctx.val a).toNat ≠ 0 → q.depth < 6 ∧ (s.ctx.val a).toNat ≤ 1048575) ∧
    (s.me.committing = false → Acts s (.loopl g e) → ((s.ctx.bypass 7).extractLsb' 16 16).toNat ≠ 0 → q.depth < 6)) ∧
  (∀ (s : State) (g : Guard) (n : BitVec 16), Acts s (.nop g n) →
    exec (.nop g n) s = .next (acted s (.nop g n) fun x => x.modMyCtx fun y => { y with nops := n.toNat }))

/-- R136, R289: SYSRD lands the register's value at issue after two cycles, and of PIBWIN takes the oldest entry; SYSWR's write
lands after one, and writes no bypass register. R22, R136, R390: in U mode SYSRD, SYSWR and ERET give cause 0x170 at issue, unless
a lower code is found: the machine takes a trap and the instruction has no effect. -/
def Obligations.SystemRegisterAccess : Prop :=
  (∀ (s : State) (g : Guard) (e : Bool) (d a : Port) (n : Fin 32),
    (n.val ≠ 20 → Acts s (.sysrd g e d (.sys n)) → exec (.sysrd g e d (.sys n)) s = .next (acted s (.sysrd g e d (.sys n)) fun t =>
      t.result .sy 7 2 e d (sysRead t s.cur n.val) 0)) ∧
    (n.val = 20 → Acts s (.sysrd g e d (.sys n)) → exec (.sysrd g e d (.sys n)) s = .next (acted s (.sysrd g e d (.sys n)) fun t =>
      (t.result .sy 7 2 e d (sysRead t s.cur 20) 0).modCore s.cur fun x => { x with pib := x.pib.tail })) ∧
    (Acts s (.syswr g (.sys n) a) → exec (.syswr g (.sys n) a) s = .next (acted s (.syswr g (.sys n) a) fun t =>
      t.launch .sy 7 1 0 [.sysreg n.val (s.ctx.val a)]))) ∧
  (∀ (s : State) (i : Instr) (g : Guard) (e : Bool) (d a : Port),
    (i = .sysrd g e d a ∨ i = .syswr g d a ∨ i = .eret g) → s.power = true → s.me.committing = false → s.me.mode = .u →
    valueWaits s s.cur i = [] →
    ∃ h, loneVerdict s i = .trap h ∧ h.cause ≤ 0x170 ∧ exec i s = .next (freeze s s.cur h false s.ctx.scyc))

/-- The system-register events: a write lands with the register's own effect. KWIN selects a flag and, with bit 63, writes it;
KSAT clears the saturation bits written as 1; PIBWIN's read takes the oldest pending increment; SEQST, LSWIN and REELWIN select
and write their windows; STEPST.FAIL stays set until release; ATAG makes tiles void or retags them; EPHST makes registers expired
or gives them their gain-cell values back; DSCCMD becomes busy unless its count is 0; QCFG leaves reserved bits 0; SCRCONS moves
up to the producer counter. That EN going from 0 to 1 clears the tail too is the model's reading (notes/assumptions/69.md). -/
def Obligations.SystemRegisterWrites : Prop :=
  ∀ (s : State) (c q p : Nat) (o : Fin 4) (v : Word), s.power = true → c < 256 → q < 16 → p < 8 →
    let x := s.core c
    let core := fun (i : Instr) (f : Core → Prop) => ∃ t, exec i s = .next t ∧ f (t.core c) ∧ SameBytes s t ∧ ∀ k, k ≠ c → t.core k = s.core k
    core (.scycWrite c v) (fun y => y = { x with ctx := { x.ctx with scyc := v } }) ∧
    core (.ephstWrite c v) (fun y => ∀ r < 64,
      vget y.ctx.eph r none = (if v.getLsbD r then some ⟨0, 0⟩ else none) ∧ vget y.ctx.s r 0 = vget x.ctx.s r 0) ∧
    core (.atagWrite c v) (fun y => ∀ r < 8,
      y.ctx.tagOf (.tile (Fin.ofNat 8 r)) = Tag.decode (bvField v (3 * r) 3) ∧
      (Tag.decode (bvField v (3 * r) 3) ≠ .void → ∀ n < 64, y.ctx.row r n = x.ctx.row r n)) ∧
    core (.seqstWrite c v) (fun y => y.ctx.seq.pc = x.ctx.seq.pc ∧ y.ctx.seq.loops = x.ctx.seq.loops ∧ y.ctx.seq.sel = bvField v 8 3 ∧
      y.ctx.seq.ptgt = v.extractLsb' 24 12 ∧ y.ctx.seq.halt = v.getLsbD 16 ∧ (bvField v 0 3 ≤ 6 → y.ctx.seq.depth = bvField v 0 3)) ∧
    core (.lswinWrite c v) (fun y => x.ctx.seq.sel < 6 → ∀ j < 6, vget y.ctx.seq.loops j LoopEntry.zero =
      if j = x.ctx.seq.sel then ⟨v.extractLsb' 24 20, v.extractLsb' 44 20, v.extractLsb' 12 12, v.extractLsb' 0 12⟩
      else vget x.ctx.seq.loops j LoopEntry.zero) ∧
    core (.kwinWrite c v) (fun y => y.kwin = bvField v 32 5 ∧ ∀ f < 32, vget y.ctx.k f 0 =
      if f = bvField v 32 5 ∧ v.getLsbD 63 = true then v.extractLsb' 0 20 else vget x.ctx.k f 0) ∧
    core (.ksatWrite c v) (fun y => ∀ f < 32, y.ctx.ksat.getLsbD f = (x.ctx.ksat.getLsbD f && !v.getLsbD f)) ∧
    core (.pibwinRead c) (fun y => y = { x with pib := x.pib.tail }) ∧
    core (.reelwinWrite c v) (fun y => y.reelSel = bvField v 32 12 ∧ ∀ e < 4096, vget y.ctx.reel e 0 =
      if e = bvField v 32 12 ∧ v.getLsbD 63 = true then v.extractLsb' 0 16 &&& 0x8FFF else vget x.ctx.reel e 0) ∧
    core (.shstWrite c v) (fun y => (x.ctx.hi.out ≠ 0 ∨ x.ctx.hi.pend ≠ 0 → y.ctx.hi = x.ctx.hi) ∧
      (x.ctx.hi.out = 0 → x.ctx.hi.pend = 0 → 1 ≤ bvField v 28 4 → bvField v 28 4 ≤ 8 → y.ctx.hi.perm = bvField v 28 4) ∧
      (x.ctx.lo.out = 0 → x.ctx.lo.pend = 0 → 1 ≤ bvField v 12 4 → bvField v 12 4 ≤ 8 → y.ctx.lo.perm = bvField v 12 4)) ∧
    core (.stepstWrite c v) (fun y => ∀ k < 64, y.stepst.getLsbD k =
      if k = 63 then x.stepst.getLsbD 63 || v.getLsbD 63 else decide (k < 9) && v.getLsbD k) ∧
    core (.istagWrite c o.val v) (fun y => ∀ k : Fin 4, vget y.istag k.val IsTag.empty =
      if k = o then ⟨v.extractLsb' 32 32, v.extractLsb' 21 11, v.extractLsb' 13 8,
        if v.getLsbD 0 then (vget x.istag o.val IsTag.empty).st else v.extractLsb' 0 2⟩ else vget x.istag k.val IsTag.empty) ∧
    core (.dsccmdWrite c v) (fun y => if bvField v 62 2 = 3 then y = x else ∀ k < 64, y.dsc.getLsbD k =
      if k = 61 then decide (bvField v 35 21 ≠ 0) else (decide (k < 21) || (decide (35 ≤ k) && decide (k < 56)) || decide (62 ≤ k)) && v.getLsbD k) ∧
    (∃ t, exec (.scrconsWrite p v) s = .next t ∧ t.mem = s.mem ∧ t.cores = s.cores ∧
      (t.part p).scrcons = if (s.part p).set = true ∧ serialLe (v.setWidth 32) (s.part p).scrprod = true then v.setWidth 32 else (s.part p).scrcons) ∧
    (∃ t, exec (.qcfgWrite q true v) s = .next t ∧ (t.queue q).qcpl = v &&& 0xFFFFFFFFFFFFF000 ∧ (t.queue q).qcfg = (s.queue q).qcfg ∧
      t.mem = s.mem ∧ t.cores = s.cores) ∧
    (∃ t, exec (.qcfgWrite q false v) s = .next t ∧ (t.queue q).en = v.getLsbD 5 ∧ (t.queue q).qcpl = (s.queue q).qcpl ∧
      (v.getLsbD 5 = true → (s.queue q).en = false → (t.queue q).head = 0 ∧ (t.queue q).tail = 0) ∧
      t.mem = s.mem ∧ t.cores = s.cores) ∧
    (∀ n ∈ [0, 3, 10, 11, 22], sysRead (sysWrite s c n v) c n = v) ∧
    sysRead (sysWrite s c 8 v) c 8 = v &&& 0x700FF ∧ sysRead (sysWrite s c 9 v) c 9 = v &&& 0xFF ∧
    sysRead (sysWrite s c 5 v) c 5 = v &&& 0x0FFF0FFF ∧ sysRead (sysWrite s c 6 v) c 6 = v &&& 0x0FFF0FFF ∧
    sysRead (sysWrite s c 7 v) c 7 = v &&& 0xC00000000003FFC0 ∧ sysRead (sysWrite s c 29 v) c 29 = v &&& 0xFFFFFFFFFFFF0000

/-! ## Traps -/

/-- R382 to R388: taking a trap in U mode with a handler installed. The core enters S mode at 64 × HIDX with a cleared sequencer
and nothing in flight, what was in flight is frozen in the core, the record holds the cause, the mask and SCYC, and the frame
holds the scalar registers; other cores are left alone. R386, R434: a trap in S mode is a double trap: the core stops with its
context as it is, and the completion ring hears of it: with room in the ring the step's record, outcome 1, and the core's report,
outcome 2, both with cause 0x17F, are its next two entries. -/
def Obligations.TrapEntry : Prop :=
  (∀ (s : State) (c : Nat) (h : Held) (post : Bool) (scyc : Word),
    s.memOk = true → c < 256 → (s.core c).mode = .u → (s.core c).tvec.getLsbD 63 = true → h.cause < 2 ^ 16 → frameFits (s.core c) →
    let t := takeTrap s c h post scyc
    (t.core c).mode = .s ∧ (t.core c).ctx.seq.pc = 64 * ((s.core c).tvec.extractLsb' 6 12).toNat ∧
    (t.core c).ctx.seq.depth = 0 ∧ (t.core c).ctx.flights = [] ∧ (t.core c).frozen = (s.core c).ctx.flights.map (Flight.freeze s c) ∧
    (t.core c).ctx.seq.sel = (s.core c).ctx.seq.sel ∧ (t.core c).yielding = none ∧
    (∀ d ∈ (s.core c).due, d ≠ h → ∃ e ∈ (t.core c).held, e.cause = d.cause) ∧
    (t.core c).ctx.s = (s.core c).ctx.s ∧ (t.core c).ctx.h = (s.core c).ctx.h ∧ (t.core c).ctx.scyc = (s.core c).ctx.scyc ∧
    readNat t (.core c) 0x1F0000 2 = h.cause ∧ readNat t (.core c) 0x1F0002 1 = h.mask.toNat ∧
    readNat t (.core c) 0x1F0008 8 = scyc.toNat ∧
    (∀ r < 64, readNat t (.core c) (0x1F0080 + 8 * r) 8 = (vget (s.core c).ctx.s r 0).toNat) ∧
    ∀ k, k ≠ c → t.core k = s.core k) ∧
  (∀ (s : State) (c : Nat) (h : Held) (post : Bool) (scyc : Word), c < 256 → (s.core c).mode = .s →
    let x := s.core c
    let t := takeTrap s c h post scyc
    let q := s.part x.part
    let at' := fun (n : Nat) => hostPa (q.d 160 8 + 32 * ((q.scrprod.toNat + n) % 2 ^ 32 % 2 ^ q.d 168 1))
    (t.core c).act = .stopped ∧ (t.core c).ctx = x.ctx ∧
    (s.memOk = true → x.act = .running → x.atEnd = false → x.part < 8 → q.set = true → q.ring = [] → x.trace.idle = true → q.d 168 1 ≤ 20 →
      (q.scrprod - q.scrcons).toNat + 2 ≤ 2 ^ q.d 168 1 →
      (t.part x.part).scrprod = q.scrprod + 2 ∧ (t.part x.part).ring = [] ∧
      readNat t .pa (at' 0) 32 = (BitVec.ofNat 256 (stepRecord x c 1 0x17F)).toNat ∧
      readNat t .pa (at' 1) 32 = (BitVec.ofNat 256 (stepRecord { x with lin := 0 } c 2 0x17F)).toNat))

/-- R391: TRAP and, with TVEC.DBG, BKPT raise their cause at the end of their group's cycle, with the code or the tag as DETAIL
and mask 0x80: within a group it is due with whatever else that cycle raises, and alone it is taken at once. BKPT without TVEC.DBG
or in S mode does nothing. R390: ERET, in S mode as a bundle of its own with no result of the handler in flight, nothing left for
the trace unit to write and no switch pending, returns: U mode, the registers, predicates, handles and SCYC the frame holds, and
what is due in that cycle lands. Here the in-flight list is empty. With a result of the handler still in flight it waits; a
context whose save is complete gives up its core. That it frees the core with tag 0 and parks the context is the model's
(notes/assumptions/25.md, 63.md). -/
def Obligations.TrapsAndReturn : Prop :=
  (∀ (s : State) (g : Guard) (code : BitVec 16),
    let traps := fun (i : Instr) (h : Held) =>
      (s.me.committing = true → exec i s = .next (acted s i fun t => t.modMe fun x => x.addDue h)) ∧
      (s.me.committing = false → exec i s = .next (acted s i fun t => freeze (t.modMe fun x => x.endCycle true false) s.cur h true s.ctx.scyc))
    (Acts s (.trap g code) → traps (.trap g code) ⟨0x171, 0x80, code, 0, 0, false, false⟩) ∧
    (Acts s (.bkpt g code) → s.me.tvec.getLsbD 62 = true → s.me.mode = .u → traps (.bkpt g code) ⟨0x172, 0x80, code, 0, 0, false, false⟩) ∧
    (Acts s (.bkpt g code) → (s.me.tvec.getLsbD 62 = false ∨ s.me.mode = .s) → exec (.bkpt g code) s = .next (acted s (.bkpt g code) id))) ∧
  (∀ (s : State) (g : Guard) (a : Nat), Acts s (.eret g) → s.cur < 256 → s.me.committing = false → s.me.mode = .s →
    (s.ctx.flights ≠ [] → exec (.eret g) s = .next (acted s (.eret g) fun t => t.modMe fun x => { x with eretReq := true })) ∧
    (s.ctx.flights = [] → s.me.trace.idle = true →
      (s.me.yielded = none → s.me.saved = .no → s.me.stepst.getLsbD 63 = false → s.me.atEnd = false → s.me.rollDue = false →
        readNat s (.core s.cur) 0x1F0016 2 % 2 ^ 14 = 0 →
        ∃ t, exec (.eret g) s = .next t ∧ t.me.mode = .u ∧ t.me.eretReq = false ∧
          (∀ r : Fin 64, vget t.ctx.s r.val 0 = BitVec.ofNat 64 (readNat s (.core s.cur) (0x1F0080 + 8 * r.val) 8)) ∧
          t.ctx.p = BitVec.ofNat 8 (readNat s (.core s.cur) 0x1F02D0 1) ||| 1 ∧
          t.ctx.scyc = BitVec.ofNat 64 (readNat s (.core s.cur) 0x1F0008 8 + readNat s (.core s.cur) 0x1F0003 1 % 2) ∧
          t.ctx.seq.pc = readNat s (.core s.cur) 0x1F0010 4 % 2 ^ 18 / 64 * 64 ∧ SameBytes s t) ∧
      (s.me.saved = .ready a → ∃ t, exec (.eret g) s = .next t ∧ t.me.mode = .u ∧ t.me.act = .free ∧ t.me.ctag = 0 ∧ t.me.saved = .no ∧
        (∃ k ∈ t.me.parked, k.ctag = s.me.ctag ∧ k.flagsAt = a) ∧ SameBytes s t)))

/-- TRAP_ENTRY, DOUBLE_TRAP, BREAKPOINT_FIRE, PREEMPTION_LANDING, CONTEXT_SWITCH_DUE: a held cause is taken at the next report
point; a cause raised in S mode stops the core; a breakpoint freezes the core with 0x173 and its number, or only records where it
traces; a preemption freezes a core between bundles with nothing in flight with 0x178, and waits otherwise; a switch that is due
freezes an idle core with 0x17A. Each entry is in S mode at the handler's address with its cause in the record. -/
def Obligations.TrapEvents : Prop :=
  ∀ (s : State) (c : Nat), s.memOk = true → s.power = true → c < 256 →
    let x := s.core c
    let taken := fun (i : Instr) (cause detail : Nat) => ∃ t, exec i s = .next t ∧ (t.core c).mode = .s ∧
      (t.core c).ctx.seq.pc = 64 * (x.tvec.extractLsb' 6 12).toNat ∧ (t.core c).ctx.s = x.ctx.s ∧ (t.core c).frozen = x.ctx.flights.map (Flight.freeze s c) ∧
      readNat t (.core c) 0x1F0000 2 = cause ∧ readNat t (.core c) 0x1F0006 2 = detail ∧ ∀ k, k ≠ c → t.core k = s.core k
    (x.mode = .s → x.act = .running → x.due ≠ [] →
      ∃ t, exec (.doubleTrap c) s = .next t ∧ (t.core c).act = .stopped ∧ (t.core c).ctx = x.ctx ∧ (t.core c).mode = .s) ∧
    (x.mode = .u → x.tvec.getLsbD 63 = true → x.ckpt = none → frameFits x →
      (∀ h : Held, x.act = .running → x.held = [h] → h.cause < 2 ^ 16 → taken (.trapEntry c) h.cause h.detail.toNat) ∧
      (∀ n < 2, x.issues = true → (x.trace.bkc n).getLsbD 0 = true → (x.trace.bkc n).getLsbD 1 = false →
        (x.trace.bkc n).getLsbD 2 = false → x.trace.fired.getLsbD n = false → x.trace.bks n = x.ctx.scyc →
        taken (.breakpointFire c n) 0x173 n) ∧
      (x.landsNow = true → x.held = [] → taken (.preemptionLanding c) 0x178 0) ∧
      (x.act = .free → x.ctag ≠ 0 → x.preReq = false → x.yieldHeld = none → taken (.contextSwitchDue c) 0x17A 0)) ∧
    (∀ n < 2, x.mode = .u → x.issues = true → (x.trace.bkc n).getLsbD 0 = true → (x.trace.bkc n).getLsbD 1 = true →
      (x.trace.bkc n).getLsbD 2 = false → x.trace.fired.getLsbD n = false → x.trace.bks n = x.ctx.scyc →
      ∃ t, exec (.breakpointFire c n) s = .next t ∧ (t.core c).mode = .u ∧ (t.core c).ctx = x.ctx ∧
        (t.core c).trace.fired.getLsbD n = true ∧ SameBytes s t) ∧
    (x.mode = .u → x.act = .running → x.landsNow = false →
      exec (.preemptionLanding c) s = .next (s.modCore c fun x => { x with preReq := true })) ∧
    (x.act ≠ .free → exec (.contextSwitchDue c) s = .next (s.modCore c fun x => { x with swReq := true }))

/-- SPILL, SPILLSP, SWOUT, FILL, FILLSP, SWIN (R394 to R398): an operation of the save engine whose pages translate is performed,
and CTXCMD then reads no error; one whose page does not sets the error code and changes nothing else. `pa` is the translated
address of a byte of the region, `flat` that its pages are mapped to distinct places. SPILL writes the image: the frame as the
save area holds it, with a list count of 0, and from 0x940 on the context, with a result that its list held landed in it; SPILLSP
the line map and the lines not discarded; SWOUT the switch record, all but CMDP. FILL and SWIN give the core what the image and
the record hold, reserved bits zero; FILLSP the lines of the map, the others reading 0. How a context saved only in part waits for
the rest is the model's own (notes/assumptions/25.md), and `Core.saved` says so. -/
def Obligations.SaveEngineEvents : Prop :=
  ∀ (s : State) (c k : Nat) (f : Flight) (q r : Nat) (v : Row) (w : Word), s.power = true → s.memOk = true → c < 256 → (s.core c).mode = .s →
    let x := s.core c
    let pa := spillPa s c x
    let flat := fun (n m : Nat) => ∃ base : Nat → Nat,
      (∀ i, n ≤ i → i < m → base i + 0x10000 ≤ 2 ^ 52 ∧ ∀ j < 0x10000, pa (0x10000 * i + j) = base i + j) ∧
      ∀ i j, n ≤ i → i < m → n ≤ j → j < m → i ≠ j → base i + 0x10000 ≤ base j ∨ base j + 0x10000 ≤ base i
    let got := fun (o n : Nat) => readNat s .pa (pa o) n
    let put := fun (t : State) (o n : Nat) => readNat t .pa (pa o) n
    let area := fun (t : State) (o n : Nat) => readNat t (.core c) (0x1F0000 + o) n
    let dead := fun (i : Nat) => mget false (physAddr s (.core c) (64 * i) / 64) s.discard
    let bad := fun (wr : Bool) (l : List (Nat × Nat)) => spillBad s c wr (spillPages x l)
    let whole := [(0, 0x24800)]
    let lines := [(0x24800, 3968), (0x30000, 64 * spLines)]
    let switch := [(0xF00, 256)]
    let done := fun (i : Instr) (f : State → Prop) => ∃ t, exec i s = .next t ∧ (t.core c).ctxBusy = none ∧ (t.core c).ctxErr = none ∧
      f t ∧ ∀ j, j ≠ c → t.core j = s.core j
    let fails := fun (i : Instr) => exec i s = .next (s.modCore c fun x => { x with ctxBusy := none, ctxErr := some k })
    (x.ctxBusy = some 1 → x.saveReady = true →
      (bad true whole = none → x.heldAtoms = [] → flat 0 3 → done (.spill c) fun t =>
        let y := (t.core c).ctx
        (x.frozen = [] → y = x.ctx) ∧ (x.frozen = [f] → f.wrs = [.row q r v] → y = x.ctx.setRow q r v) ∧
        (x.frozen = [f] → f.wrs = [.scalar r w] → r < 64 → put t (0x080 + 8 * r) 8 = w.toNat) ∧
        (t.core c).saved = .image (spillVa x 0xA00) ∧ (t.core c).ckpt = none ∧ (t.core c).frozen = [] ∧ (t.core c).frozenVa = RowUnit.idle ∧
        put t 0 22 = area t 0 22 ∧ put t 22 2 = area t 22 2 / 2 ^ 14 * 2 ^ 14 ∧ put t 24 104 = area t 24 104 ∧
        put t 0x080 512 = area t 0x080 512 ∧ put t 0x2D0 8 = area t 0x2D0 8 ∧ put t 0x300 1024 = area t 0x300 1024 ∧
        (∀ i < 16, put t (0x940 + 8 * i) 8 = (([y.scyc, y.afl, y.afte, y.srseed, y.srctr, y.bhkey, y.spwcl, y.spwdi, y.cflog, y.dmr,
          y.shst, y.atag, y.pcfg, y.ksat.setWidth 64, y.drow, y.dcol] : List Word).getD i 0).toNat) ∧
        (∀ j < 16, put t (0x9C0 + 4 * j) 4 = (vget y.norms j 0).toNat ∧ put t (0x1000 + 256 * j) 256 = (vget y.dirs j 0).toNat) ∧
        (∀ j < 32, put t (0xA00 + 4 * j) 4 = y.flagVal j) ∧
        (∀ j < 8, put t (0xA80 + 8 * j) 8 = (y.tile j).resid.toNat ∧
          ((y.tile j).tag ≠ .void → ∀ m < 64, put t (0x4800 + 0x4000 * j + 256 * m) 256 = (y.row j m).toNat)) ∧
        (∀ j < 16, let b := y.bobbin j; let at' := 0x2000 + 128 * j
          put t at' 8 = b.cfg.toNat ∧ put t (at' + 8) 8 = b.loc.toNat ∧ put t (at' + 16) 8 = b.ptr.toNat ∧
          put t (at' + 24) 4 = b.sbo.toNat ∧ put t (at' + 28) 4 = b.zbo.toNat ∧ put t (at' + 96) 32 = 0 ∧
          ∀ i < 256, put t (at' + 32 + i / 4) 1 / 4 ^ (i % 4) % 4 =
            match b.slot i with | .free => 0 | .reserved => 1 | .landed => 2 | .failed => 3) ∧
        ∀ e < 4096, put t (0x2800 + 2 * e) 2 = (vget y.reel e 0).toNat) ∧
      (bad true whole = some k → fails (.spill c))) ∧
    (∀ a, x.ctxBusy = some 2 → x.outst = 0 → x.saved = .image a → bad true lines = none → flat 2 34 →
      done (.spillsp c) fun t => (t.core c).ctx = x.ctx ∧ (t.core c).saved = .ready a ∧ ∀ i < 0x7C00,
        put t (0x24800 + i / 8) 1 / 2 ^ (i % 8) % 2 = (if dead i then 0 else 1) ∧
        (dead i = false → put t (0x30000 + 64 * i) 64 = readNat s (.core c) (64 * i) 64)) ∧
    (x.ctxBusy = some 2 → x.outst = 0 → bad true lines = some k → fails (.spillsp c)) ∧
    (x.ctxBusy = some 5 → x.saveReady = true →
      (bad true switch = none → x.heldAtoms = [] → x.frozen = [] → flat 0 1 → done (.swout c) fun t =>
        let y := x.ctx
        (t.core c).ctx = y ∧ (t.core c).saved = .ready (spillVa x 0xF48) ∧ (t.core c).ckpt = none ∧
        (∀ i < 8, put t (0xF08 + 8 * i) 8 =
          (([y.afl, y.afte, y.srseed, y.bhkey, y.spwcl, y.spwdi, y.cflog, y.ksat.setWidth 64] : List Word).getD i 0).toNat) ∧
        (∀ j < 32, put t (0xF48 + 4 * j) 4 = y.flagVal j) ∧ put t 0xFC8 2 = x.ctag.toNat ∧ put t 0xFCA 54 = 0 ∧ put t 0xF00 8 = got 0xF00 8) ∧
      (bad true switch = some k → fails (.swout c))) ∧
    (x.ctxBusy = some 4 →
      (bad false lines = none → flat 2 34 → done (.fillsp c) fun t => t.core c = { x with ctxBusy := none, ctxErr := none } ∧ ∀ i < 0x7C00,
        readNat t (.core c) (64 * i) 64 = if got (0x24800 + i / 8) 1 / 2 ^ (i % 8) % 2 = 1 then got (0x30000 + 64 * i) 64 else 0) ∧
      (bad false lines = some k → fails (.fillsp c))) ∧
    ((s.part x.part).pausing = false → x.trace.idle = true → x.ctxBusy = some 3 →
      (bad false whole = none → flat 0 3 → done (.fill c) fun t =>
        let y := (t.core c).ctx
        (t.core c).ctag = BitVec.ofNat 16 (got 4 2) ∧ y.scyc = BitVec.ofNat 64 (got 0x940 8) ∧
        y.afl = BitVec.ofNat 64 (got 0x948 8) &&& 0x700FF ∧ y.srseed = BitVec.ofNat 64 (got 0x958 8) ∧
        y.srctr = BitVec.ofNat 64 (got 0x960 8) ∧ y.bhkey = BitVec.ofNat 64 (got 0x968 8) ∧
        y.drow = BitVec.ofNat 64 (got 0x9B0 8) ∧ y.dcol = BitVec.ofNat 64 (got 0x9B8 8) ∧
        (∀ j < 32, vget y.k j 0 = BitVec.ofNat 20 (got (0xA00 + 4 * j) 4)) ∧
        (∀ j < 8, (y.tile j).resid = BitVec.ofNat 64 (got (0xA80 + 8 * j) 8) ∧
          ((y.tile j).tag ≠ .void → ∀ m < 64, y.row j m = BitVec.ofNat 2048 (got (0x4800 + 0x4000 * j + 256 * m) 256))) ∧
        (∀ o, o < 0x280 ∨ 0x2D0 ≤ o ∧ o < 0x2D8 ∨ 0x2E0 ≤ o ∧ o < 0x700 ∨ 0x940 ≤ o ∧ o < 0x1000 → area t o 1 = got o 1) ∧
        (t.core c).saved = .no ∧ (t.core c).frozen = [] ∧ (x.inten = true → (t.core c).ckpt.isSome = true)) ∧
      (bad false whole = some k → fails (.fill c))) ∧
    ((s.part x.part).pausing = false → x.trace.idle = true → x.ctxBusy = some 6 →
      (bad false switch = none → done (.swin c) fun t =>
        let y := (t.core c).ctx
        (t.core c).ctag = x.ctxTag ∧ (t.core c).atEnd = true ∧ y.s = x.ctx.s ∧ (t.core c).saved = .no ∧
        y.afl = BitVec.ofNat 64 (got 0xF08 8) &&& 0x700FF ∧ y.afte = BitVec.ofNat 64 (got 0xF10 8) &&& 0xFF ∧
        y.srseed = BitVec.ofNat 64 (got 0xF18 8) ∧ y.bhkey = BitVec.ofNat 64 (got 0xF20 8) ∧
        y.ksat = BitVec.ofNat 32 (got 0xF40 8) ∧ ∀ j < 32, vget y.k j 0 = BitVec.ofNat 20 (got (0xF48 + 4 * j) 4)) ∧
      (bad false switch = some k → fails (.swin c)))

/-- UNCORRECTABLE_ERROR, CORRECTABLE_ERROR, DISCARD_MARK_DONE, TRACE_RECORD_WRITE (R400, R403, R227, R411): an uncorrectable error
in a core's own state ends the step, if no checkpoint is open: its STEPST is FAIL with 0x174, no further group issues, results in
flight stay to land, everything else queued is gone, and the core's release records outcome 1 with cause 0x174; in S mode the step
ends so once the handler returns (R22). With a checkpoint open the context is the shadow store's again, ephemeral copies expired,
the lines of the undo log are as they were, and the first rerun begins; the fourth error in the reruns retires the core; in S mode
the rollback follows the return. In the instruction store the slot's tag becomes empty and the fetch traps with 0x176 and its
address. In a cellar's request, or at a byte of an item of a list copy, the item fails with 0x177. In the shadow store it closes
the checkpoint. A correctable error is counted; a discard ends with its line marked, and the busy bit clear; and the oldest trace
record goes to its place. That an error is an event which the outside names is the model's own (notes/assumptions/25.md, 98.md). -/
def Obligations.ErrorTraceAndDiscardEvents : Prop :=
  ∀ (s : State) (c n : Nat) (o : Op) (rec' : BitVec 256) (l : List (BitVec 256)) (pa n' : Nat) (w : Bool), s.memOk = true → s.power = true → c < 256 →
    let x := s.core c
    let fails := { o with phase := Phase.performed, fails := 1 }
    let len := bvField o.cflog 44 4
    let place := bvField o.cflog 5 22 * 32 + 32 * (bvField (s.core o.core).ctx.cflog 48 16 % 2 ^ len)
    let q := s.part x.part
    (x.act = .running → x.mode = .u → x.ckpt = none → ∃ t, exec (.uncorrectableError c .core) s = .next t ∧
      (let y := t.core c
       y.stepst = BitVec.ofNat 64 (2 ^ 63 + 0x174) ∧ y.ctx.seq.halt = true ∧ y.issues = false ∧ y.hold = none ∧ y.mx = none ∧ y.mxq = [] ∧
        y.tm = [] ∧ y.ctx.va = RowUnit.idle ∧ y.ctx.sf = RowUnit.idle ∧ ∀ f, f ∈ y.ctx.flights ↔ f ∈ x.ctx.flights) ∧
      SameBytes s t ∧ ∀ k, k ≠ c → t.core k = s.core k) ∧
    (x.drained = true → x.stepst = BitVec.ofNat 64 (2 ^ 63 + 0x174) → x.rerunning = false → x.preReq = false → x.swReq = false →
      x.yieldHeld = none → x.part < 8 → q.set = true → q.ringFull = false → q.ring = [] → (∀ k < 256, (s.core k).arrived = none) →
      (∀ k < 8, (s.cellar k).batches = []) → ∃ t, exec (.coreRelease c) s = .next t ∧ (t.core c).act = .free ∧
        readNat t .pa (hostPa (q.d 160 8 + 32 * (q.scrprod.toNat % 2 ^ q.d 168 1))) 32 = (BitVec.ofNat 256 (stepRecord x c 1 0x174)).toNat) ∧
    (∀ k : Ckpt, x.act = .running → x.mode = .u → x.ckpt = some k → k.rerun = 0 → k.mid = false → k.flagsIn = [] →
      ∃ t k', exec (.uncorrectableError c .core) s = .next t ∧ (t.core c).ckpt = some k' ∧ k'.rerun = 1 ∧ k'.shadow = k.shadow ∧
        (t.core c).ctx = { k.shadow with eph := k.shadow.eph.map fun e => e.map fun _ => ⟨0, 0⟩ } ∧ (t.core c).failn = k.failn ∧
        (k.undo = [] → SameBytes s t) ∧
        (∀ (i : Nat) (v : BitVec 512), k.undo = [(i, v)] → i < 0x8000 → readNat t (.core c) (64 * i) 64 = v.toNat) ∧
        ∀ j, j ≠ c → t.core j = s.core j) ∧
    (∀ k : Ckpt, x.act = .running → x.mode = .u → x.ckpt = some k → k.rerun ≠ 0 → 3 ≤ k.errors →
      ∃ t, exec (.uncorrectableError c .core) s = .next t ∧ (t.core c).act = .retired ∧ (t.core c).ckpt = none) ∧
    (x.act = .running → x.mode = .s → x.ckpt = none → exec (.uncorrectableError c .core) s =
      .next (s.modCore c fun x => { x with ckpt := none, stepst := BitVec.ofNat 64 (2 ^ 63 + 0x174) })) ∧
    (x.act = .running → x.mode = .s → x.ckpt.isSome = true → exec (.uncorrectableError c .core) s =
      .next (s.modCore c fun x => { x with rollDue := true })) ∧
    exec (.uncorrectableError c .shadow) s = .next (s.modCore c fun x => { x with ckpt := none }) ∧
    (∀ j < 4, x.act = .running → x.mode = .u → x.tvec.getLsbD 63 = true → x.ckpt = none → frameFits x → x.ctx.seq.pc / 0x10000 = j →
      ∃ t, exec (.uncorrectableError c (.istore j)) s = .next t ∧ (t.core c).mode = .s ∧ (vget (t.core c).istag j IsTag.empty).st = 0 ∧
        readNat t (.core c) 0x1F0000 2 = 0x176 ∧ readNat t (.core c) 0x1F0018 8 = x.ctx.seq.pc % 2 ^ 64 ∧ ∀ k, k ≠ c → t.core k = s.core k) ∧
    (n < 8 → (s.cellar n).reqs = [o] → o.phase = .started → Plain s o → ∃ t, exec (.uncorrectableError c (.cellarItem n 0)) s = .next t ∧
      (t.cellar n).reqs = [fails] ∧ (t.core o.core).failn = (s.core o.core).failn + 1 ∧
      (len ≠ 0 → place + 32 ≤ (Space.die (dieOf o.core)).size → readNat t (.die (dieOf o.core)) place 2 = 0x177)) ∧
    (∀ (g : Guard) (d a b : Port) (scope : Scope) (stop : Bool) (lv : Lvl) (ofs : Nat), o.ins = .cpyl g d a b scope stop lv → o.core = c → o.phase = .started →
      o.orig = none → x.ag = [] → x.stash = [] → x.taken = [o] →
      let bad := { o with err := some (ofs, 0x177) }
      exec (.uncorrectableError c (.ceItem ofs)) s = .next (s.modCore c fun x => { x with taken := [bad] }) ∧
      ∀ (e : ListEntry) (sc : Scope), listEntry s o o.idx = .ok e → e.ok = true → e.rf = false → e.ss.lvl < 3 → e.ds.lvl < 3 →
        ofs < e.len * e.rows →
        (∀ r < e.rows, ∀ i < e.len, (∃ sp a, placeOf s o e.ss false ((wrap 64 ((e.src : Int) + (r : Int) * e.sstr) + i) % 2 ^ 64) = .at sp a) ∧
          ∃ sp a, placeOf s o e.ds true ((wrap 64 ((e.dst : Int) + (r : Int) * e.dstr) + i) % 2 ^ 64) = .at sp a) →
        (listItem s bad sc o.idx).fail = some (0x177, ofs)) ∧
    exec (.correctableError c) s = .next (s.modCore c fun x => { x with cec := min 65535 (x.cec + 1) }) ∧
    (x.dsc.getLsbD 61 = true → bvField x.dsc 62 2 = 0 → bvField x.dsc 35 21 = 1 → bvField x.dsc 0 21 < 0x8000 →
      ∃ t, exec (.discardMarkDone c) s = .next t ∧ (t.core c).dsc = x.dsc &&& ~~~0x2000000000000000 ∧ t.mem = s.mem ∧
        mget false (physAddr s (.core c) (64 * bvField x.dsc 0 21) / 64) t.discard = true) ∧
    (x.trace.fault = none → x.trace.buf = rec' :: l → tracePlace s c = .ok pa w n' →
      ∃ t, exec (.traceRecordWrite c) s = .next t ∧ readNat t .pa pa 32 = rec'.toNat ∧ (t.core c).trace.buf = l ∧
        (x.trace.idx < 2047 → (t.core c).trace.idx = x.trace.idx + 1 ∧ (t.core c).trace.page = x.trace.page) ∧
        (x.trace.idx = 2047 → (t.core c).trace.idx = 0 ∧ (t.core c).trace.page = (x.trace.page + 1) % x.trace.npg) ∧
        (t.core c).ctx = x.ctx)

/-! ## Synchronisation -/

/-- R284: AWAIT lands its flag's value; with .c the flag falls by B. Below the threshold its group does not issue, a threshold of
0 waits for nothing, and one above 1,048,575 gives cause 0x0E4 unless a lower code is found. With a lower code the cause is only
bounded. R287: FLUSHY's group waits while copies are outstanding; D then receives the failure count, at most 65,535, and the count
is 0. R286, R267: POST queues its operation with what it read at issue, and counts as an outstanding copy; with an amount of 0 it
is a fence of its scope, which may close its die's epoch and changes nothing else (R254). Here no checkpoint is open. R369, R374:
SYNCD at level 0 ends the phase at once with a fence of scope core and the next phase number; at another level it issues once its
domain has handed it the number, and takes it. YIELD in U mode writes 0 and asks for the core to be given up when its bundle ends.
The 0 at issue, corrected at that end, is the model's mechanism (notes/assumptions/36.md); the number of another level comes from
the end of its phase. -/
def Obligations.SynchronisationResults : Prop :=
  (∀ (s : State) (g : Guard) (e c : Bool) (d b : Port) (f : Fin 32),
    let i := Instr.await g e d (.k f) b c
    let n := (s.ctx.val b).toNat
    (Acts s i → exec i s = .next (acted s i fun t =>
      (t.result .sy 7 1 e d (BitVec.ofNat 64 (s.ctx.flagVal f.val)) 0).modMyCtx fun x =>
        { x with k := if c then vset x.k f.val (BitVec.ofNat 20 (s.ctx.flagVal f.val - n)) else x.k })) ∧
    (s.ctx.guard g = true → s.ctx.flagVal f.val < n → loneVerdict s i ≠ .go) ∧
    (s.ctx.guard g = true → 1048575 < n → valueWaits s s.cur i = [] →
      ∃ h, loneVerdict s i = .trap h ∧ h.cause ≤ 0x0E4)) ∧
  (∀ (s : State) (g : Guard) (e : Bool) (d : Port),
    let i := Instr.flushy g e d
    (s.ctx.guard g = true → s.me.outst ≠ 0 → loneVerdict s i ≠ .go) ∧
    (Acts s i → exec i s = .next (acted s i fun t =>
      (t.result .sy 7 1 e d (BitVec.ofNat 64 (min 65535 s.me.failn)) 0).modMe fun x => { x with failn := 0 }))) ∧
  (∀ (s : State) (g : Guard) (d a b c : Port) (sc : Scope) (rmt : Bool), s.me.ckpt = none →
    Acts s (.post g d a b c sc rmt) → exec (.post g d a b c sc rmt) s = .next (acted s (.post g d a b c sc rmt) fun t =>
      let u := if s.ctx.val a = 0 then fenceEpoch sc t else t
      u.modMe fun x => { x with
        outst := x.outst + 1
        sy := x.sy ++ [u.mkOp (.post g d a b c sc rmt) (s.ctx.val a) (s.ctx.val b) (s.ctx.val c) 0 0 0 0] }) ∧
    { fenceEpoch sc s with dies := s.dies } = s) ∧
  (∀ (s : State) (g : Guard) (e : Bool) (d a : Port) (lv : BitVec 3) (n : BitVec 32),
    (Acts s (.syncd g e d 0) → s.cur < 256 → ∃ t, exec (.syncd g e d 0) s = .next t ∧ t.me.phase0 = s.me.phase0 + 1 ∧
      t.ctx.flights = s.ctx.flights ++ [⟨s.nextId, 1, .sy, 7, 0, destWrs .sy e d ((s.me.phase0 + 1).setWidth 64)⟩] ∧
      t.me.fences.length = s.me.fences.length + 1 ∧ SameBytes s t) ∧
    (Acts s (.syncd g e d lv) → lv ≠ 0 → s.me.phaseEnd = some n → exec (.syncd g e d lv) s =
      .next (acted s (.syncd g e d lv) fun t => (t.result .sy 7 1 e d (n.setWidth 64) 0).modMe fun x => { x with phaseEnd := none })) ∧
    (Acts s (.yieldc g e d a) → s.me.mode = .u → exec (.yieldc g e d a) s = .next (acted s (.yieldc g e d a) fun t =>
      (t.result .sy 7 1 e d 0 0).modMe fun x => { x with yielding := some (d, e, (s.ctx.val a).setWidth 32) })))

/-- R285, whole: the mask is A[31:0]; a mask of 0 gives cause 0x0E4, unless the group has a lower code (R44); the group waits
while no flag of the mask is at least 1, and goes once one is, where nothing else keeps a group from issuing, as
`Obligations.ScalarInstructionsIssue` lists it (R34, R115, R118); and in the issue cycle the lowest such flag falls by 1 and D
receives its number. -/
def Obligations.WaitqResult : Prop :=
  ∀ (s : State) (g : Guard) (e : Bool) (d a : Port) (f : Nat),
    let i := Instr.waitq g e d a
    let m := s.ctx.val a
    (s.ctx.guard g = true → (∀ k < 32, m.getLsbD k = false) → valueWaits s s.cur i = [] →
      ∃ h, loneVerdict s i = .trap h ∧ h.cause ≤ 0x0E4) ∧
    (s.ctx.guard g = true → (∀ k < 32, m.getLsbD k = true → s.ctx.flagVal k = 0) → loneVerdict s i ≠ .go) ∧
    (s.ctx.guard g = true → i.wf = true → s.cur < 256 → s.me.mode = .u → s.ctx.seq.dsc = 0 → s.ctx.scyc.toNat % 64 ≠ 0 →
      s.ctx.afl.getLsbD 18 = false → isByp a = false → (∀ r : Fin 64, vget s.ctx.eph r.val none = none) → s.me.mx = none → s.me.mxq = [] →
      s.me.tm = [] → s.me.rowRun = none → s.me.ag = [] → (∀ k < 8, (s.cellar k).reqs = []) →
      ((∀ k < 32, m.getLsbD k = false) → ∃ h, loneVerdict s i = .trap h ∧ h.cause = 0x0E4) ∧
      ((∃ k < 32, m.getLsbD k = true) → (∀ k < 32, m.getLsbD k = true → s.ctx.flagVal k = 0) → loneVerdict s i = .hold 3) ∧
      (∀ k < 32, m.getLsbD k = true → 1 ≤ s.ctx.flagVal k → loneVerdict s i = .go)) ∧
    (Acts s i → f < 32 → m.getLsbD f = true → 1 ≤ s.ctx.flagVal f → (∀ k < f, m.getLsbD k = true → s.ctx.flagVal k = 0) →
      exec i s = .next (acted s i fun t => (t.result .sy 7 1 e d (BitVec.ofNat 64 f) 0).modMyCtx fun x =>
        { x with k := vset x.k f (BitVec.ofNat 20 (s.ctx.flagVal f - 1)) }))

/-- R373, whole: SETDMR returns DMR as it stood at issue; without .rd it writes EN and COL from A[41:38] and A[15:0] one cycle
later and nothing else of DMR; with .rd it writes nothing. -/
def Obligations.SetdmrResult : Prop :=
  ∀ (s : State) (g : Guard) (e : Bool) (d a : Port),
    (Acts s (.setdmr g e d a true) → exec (.setdmr g e d a true) s =
      .next (acted s (.setdmr g e d a true) fun t => t.launch .sy 7 1 0 (destWrs .sy e d s.ctx.dmr))) ∧
    (Acts s (.setdmr g e d a false) → exec (.setdmr g e d a false) s =
      .next (acted s (.setdmr g e d a false) fun t =>
        (t.launch .sy 7 1 0 (destWrs .sy e d s.ctx.dmr)).launch .sy 7 1 0 [.dmr (s.ctx.val a)])) ∧
    ∀ (c : Nat) (f : Flight) (v : Word), c < 256 → ∀ k < 64,
      ((landWr c f s (.dmr v)).core c).ctx.dmr.getLsbD k =
        if k < 16 ∨ (38 ≤ k ∧ k < 42) then v.getLsbD k else (s.core c).ctx.dmr.getLsbD k

/-- R409: a MARK in U mode computes its drift from the step clock, and arms interlock trace where the threshold is not 0 and the
drift reaches it; in S mode it does nothing. Of the context it changes nothing. R401: a CKPT in U mode with INTEG.EN, outside a
rerun, opens a checkpoint: CKN rises, D receives it after one cycle, the shadow store holds the context, and both logs are empty.
In S mode or with EN = 0 it only lands CKN. R403: at the end of the first rerun its SCYC and signature are kept and the shadow
store's context is put back for the second; two equal ends count one error recovered and the new checkpoint opens; two that differ
retire the core. Here the shadow store was filled between bundles. -/
def Obligations.MarkAndCheckpointResults : Prop :=
  (∀ (s : State) (g : Guard) (rel : Bool) (exp : BitVec 26), s.cur < 256 → Acts s (.mark g rel exp) →
    (s.me.mode = .u → ∃ t, exec (.mark g rel exp) s = .next t ∧ t.ctx.s = s.ctx.s ∧ t.ctx.flights = s.ctx.flights ∧ SameBytes s t ∧
      t.me.trace.prev = s.me.sclk ∧
      let drift := (s.me.sclk.toNat : Int) - (if rel then (s.me.trace.prev.toNat : Int) else 0) - exp.toNat
      let sat := if drift < -2 ^ 31 then -2 ^ 31 else if 2 ^ 31 - 1 < drift then 2 ^ 31 - 1 else drift
      (t.me.trace.armed = true ↔ s.me.trace.thr ≠ 0 ∧ s.me.trace.thr ≤ sat.natAbs)) ∧
    (s.me.mode = .s → exec (.mark g rel exp) s = .next (acted s (.mark g rel exp) id))) ∧
  (∀ (s : State) (g : Guard) (e : Bool) (d : Port), Acts s (.ckpt g e d) → s.cur < 256 →
    ((s.me.mode = .s ∨ s.me.inten = false) → exec (.ckpt g e d) s =
      .next (acted s (.ckpt g e d) fun t => t.result .sy 7 1 e d (s.me.ckn.setWidth 64) 0)) ∧
    (s.me.mode = .u → s.me.inten = true → s.me.rerunning = false → s.me.act ≠ .retired →
      ∃ (t : State) (k : Ckpt), exec (.ckpt g e d) s = .next t ∧ t.me.ckn = s.me.ckn + 1 ∧ t.me.ckpt = some k ∧
        k.undo = [] ∧ k.once = [] ∧ k.rerun = 0 ∧ k.shadow = t.ctx ∧
        t.ctx.flights = s.ctx.flights ++ [⟨s.nextId, 1, .sy, 7, 0, destWrs .sy e d ((s.me.ckn + 1).setWidth 64)⟩] ∧ SameBytes s t) ∧
    (∀ k : Ckpt, s.me.mode = .u → s.me.inten = true → s.me.act = .running → s.me.ckpt = some k → k.mid = false → k.flagsIn = [] →
      let here := (s.ctx.scyc, signature k.writes)
      (k.rerun = 1 → ∃ (t : State) (k' : Ckpt), exec (.ckpt g e d) s = .next t ∧ t.me.ckpt = some k' ∧ k'.rerun = 2 ∧ k'.sigs = [here] ∧
        k'.shadow = k.shadow ∧ t.me.ckn = s.me.ckn ∧ t.ctx = { k.shadow with eph := k.shadow.eph.map fun e => e.map fun _ => ⟨0, 0⟩ } ∧
        (k.undo = [] → SameBytes s t)) ∧
      (k.rerun = 2 → k.sigs = [here] → ∃ (t : State) (k' : Ckpt), exec (.ckpt g e d) s = .next t ∧ t.me.ckpt = some k' ∧ k'.rerun = 0 ∧
        k'.undo = [] ∧ k'.once = [] ∧ k'.shadow = t.ctx ∧ t.me.ckn = s.me.ckn + 1 ∧ t.me.uec = min 255 (s.me.uec + 1) ∧ SameBytes s t) ∧
      (k.rerun = 2 → k.sigs ≠ [here] → ∃ t, exec (.ckpt g e d) s = .next t ∧ t.me.act = .retired ∧ t.me.ckpt = none)))

/-! ## Vectors, directions, matrices -/

/-- R142, R145 to R147: a row instruction that acts gives its destination tile its tag and joins its unit behind the operations
already there, with its first row next. Its scalar operands are the values its ports have at issue. Nothing else changes but its
core's hold, trace unit and AFL (R118) and, where the tile is retagged, what was still to land in it. It covers vadd, vsub, vmul,
vfma, vmin, vmax, vabs, vneg, vcmp, vsel, vand, vor, vxor, vshl, vshr, vcvt, vqnt, vdq, vaddp8, vmulp8, vbcast, vrow, vperm, vsum,
vmaxr, vmred, vmscan, vband, vpopc, vpfx, visect, vlsem, exp2, log2, rcp, rsqrt, sqrt, sin, cos and tanh. R142, R159: VROW.rel
makes its tile void: zero bits in every row, and rows of earlier instructions still to land in it are dropped. -/
def Obligations.RowInstructionsIssue : Prop :=
  (∀ (s : State) (i : Instr), hasRows i = true → Acts s i → s.cur < 256 →
    ∃ (t : State) (o : RowOp) (a : Word), exec i s = .next t ∧
      let x := s.ctx.rowRetag i
      let ports := ((slotInfo i).map (·.srcs)).getD []
      let sf := (slotInfo i).map (·.unit) == some .sf
      (if sf then t.ctx.sf.ops = x.sf.ops ++ [o] ∧ t.ctx.va = x.va else t.ctx.va.ops = x.va.ops ++ [o] ∧ t.ctx.sf = x.sf) ∧
      o.ins = i ∧ o.id = s.nextId ∧ o.row = (rowRange i).1 ∧ o.dead = false ∧ o.ty = (rowTags s.ctx i).1 ∧
      o.a = s.ctx.val (ports.getD 0 .z) ∧ o.b = s.ctx.val (ports.getD 1 .z) ∧ o.c = s.ctx.val (ports.getD 2 .z) ∧
      (∀ r : Fin 8, rowDest i = .tile r → t.ctx.tagOf (.tile r) = (rowTags s.ctx i).2) ∧
      t.ctx = { x with va := t.ctx.va, sf := t.ctx.sf, afl := a } ∧ (a = s.ctx.afl ∨ a = s.ctx.afl ||| 0x80) ∧
      { t.me with ctx := s.ctx, hold := s.me.hold, trace := s.me.trace } = s.me ∧ SameBytes s t ∧
      { t with cores := s.cores, nextId := s.nextId } = s ∧ ∀ k, k ≠ s.cur → t.core k = s.core k) ∧
  (∀ (s : State) (g : Guard) (r : Fin 8), Acts s (.vrowRel g (.tile r)) → s.cur < 256 →
    ∃ t, exec (.vrowRel g (.tile r)) s = .next t ∧ t.ctx.tile r.val = Tile.void ∧
      (∀ k, k ≠ r.val → t.ctx.tile k = s.ctx.tile k) ∧ (∀ f ∈ t.ctx.flights, ∀ n v, Wr.row r.val n v ∉ f.wrs) ∧ SameBytes s t)

/-- R147, R151, R152: one row of an integer instruction of va on INT32 tiles, with the tile rows as they stand in its cycle: each
of the 64 lanes is computed modulo 2^32, and the row is in flight for the instruction's latency. R147, R151: one row of a
floating-point instruction of va on FP32 tiles: each of the 64 lanes is the exact result rounded once to binary32 under the
instruction's rounding code. R146, R151 to R164: the rows of the other integer instructions of va, with what reaches va.y: masks
and minima of VCMP, VBAND and VMAXR, sums and counts, VPERM's lanes, and VMRED's and VMSCAN's additions by key; VISECT adds the
products of the values that both bitmaps name to its accumulator and moves its cursors on. R86, R151 to R157, R161, R165 to R168:
rows of the other floating-point instructions: minima, comparisons, sums, conversions, ungrouped quantization, packed FP8, merged
triples; and sf, whose SIN and COS, when finite and not 0, lie within two encodings of the correctly rounded magnitude. -/
def Obligations.VectorLanes : Prop :=
  (∀ (s : State) (c : Nat) (o : RowOp) (g : Guard) (td ta tb tc : Fin 8) (rm : Rnd) (rf : BitVec 6) (nl : BitVec 5),
    let x := (s.core c).ctx
    let lane := fun (t : Fin 8) (k : Nat) => ((x.row t.val o.row).extractLsb' (32 * k) 32 : BitVec 32)
    let row := fun (i : Instr) (lat : Nat) (f : Nat → BitVec 32) => o.ins = i →
      ∃ (t : State) (r : Flight) (v : Row), exec (.vectorRowStart c false) s = .next t ∧
        (t.core c).ctx.flights = x.flights ++ [r] ∧ r.id = o.id ∧ r.rem = lat ∧ r.wrs = [.row td.val o.row v] ∧
        (∀ k < 64, v.extractLsb' (32 * k) 32 = f k) ∧ (t.core c).ctx.tiles = x.tiles
    s.power = true → c < 256 → (s.core c).mode = .u → x.va.cur = some o → o.ty = .int32 → o.dead = false →
    row (.vadd g (.tile td) (.tile ta) (.tile tb) rm rf nl) 4 (fun k => lane ta k + lane tb k) ∧
    row (.vsub g (.tile td) (.tile ta) (.tile tb) rm rf nl) 4 (fun k => lane ta k - lane tb k) ∧
    row (.vmul g (.tile td) (.tile ta) (.tile tb) rm rf nl) 4 (fun k => lane ta k * lane tb k) ∧
    row (.vfma g (.tile td) (.tile ta) (.tile tb) (.tile tc) rm rf nl) 5 (fun k => lane ta k * lane tb k + lane tc k) ∧
    row (.vmin g (.tile td) (.tile ta) (.tile tb) rf nl) 2 (fun k => if (lane ta k).sle (lane tb k) then lane ta k else lane tb k) ∧
    row (.vmax g (.tile td) (.tile ta) (.tile tb) rf nl) 2 (fun k => if (lane ta k).sle (lane tb k) then lane tb k else lane ta k) ∧
    row (.vneg g (.tile td) (.tile ta) rf nl) 2 (fun k => 0 - lane ta k) ∧
    row (.vand g (.tile td) (.tile ta) (.tile tb) rf nl) 1 (fun k => lane ta k &&& lane tb k) ∧
    row (.vor g (.tile td) (.tile ta) (.tile tb) rf nl) 1 (fun k => lane ta k ||| lane tb k) ∧
    row (.vxor g (.tile td) (.tile ta) (.tile tb) rf nl) 1 (fun k => lane ta k ^^^ lane tb k) ∧
    row (.vshl g (.tile td) (.tile ta) (.tile tb) rf nl) 1 (fun k => lane ta k <<< ((lane tb k).toNat % 32)) ∧
    row (.vshr g (.tile td) (.tile ta) (.tile tb) false rf nl) 1 (fun k => lane ta k >>> ((lane tb k).toNat % 32)) ∧
    row (.vsel g (.tile td) (.tile ta) (.tile tb) (.tile tc) rf nl) 2 (fun k => if lane tc k = 0 then lane tb k else lane ta k)) ∧
  (∀ (s : State) (c : Nat) (o : RowOp) (g : Guard) (td ta tb tc : Fin 8) (rm : Rnd) (rf : BitVec 6) (nl : BitVec 5),
    let x := (s.core c).ctx
    let lane := fun (t : Fin 8) (k : Nat) => unpack .f32 ((x.row t.val o.row).extractLsb' (32 * k) 32 : BitVec 32).toNat
    let row := fun (i : Instr) (lat : Nat) (f : Nat → FV) => o.ins = i →
      ∃ (t : State) (r : Flight) (v : Row), exec (.vectorRowStart c false) s = .next t ∧
        (t.core c).ctx.flights = x.flights ++ [r] ∧ r.rem = lat ∧ r.wrs = [.row td.val o.row v] ∧
        ∀ k < 64, v.extractLsb' (32 * k) 32 = BitVec.ofNat 32 (roundF .f32 rm false (f k)).1
    s.power = true → c < 256 → (s.core c).mode = .u → x.va.cur = some o → o.ty = .fp32 → o.dead = false →
    row (.vadd g (.tile td) (.tile ta) (.tile tb) rm rf nl) 4 (fun k => FV.add rm (lane ta k) (lane tb k)) ∧
    row (.vsub g (.tile td) (.tile ta) (.tile tb) rm rf nl) 4 (fun k => FV.sub rm (lane ta k) (lane tb k)) ∧
    row (.vmul g (.tile td) (.tile ta) (.tile tb) rm rf nl) 4 (fun k => FV.mul (lane ta k) (lane tb k)) ∧
    row (.vfma g (.tile td) (.tile ta) (.tile tb) (.tile tc) rm rf nl) 5 (fun k => FV.fma rm (lane ta k) (lane tb k) (lane tc k))) ∧
  (∀ (s : State) (c : Nat) (o : RowOp) (g : Guard) (td ta tb : Fin 8) (sr : Fin 64) (e arg : Bool) (d pc : Port) (rm : Rnd) (cond : VCond) (fmt : Fmt)
    (rf sf : BitVec 6) (nl : BitVec 5),
    let x := (s.core c).ctx
    let cell := fun (t : Fin 8) (k : Nat) => ((x.row t.val o.row).extractLsb' (32 * k) 32 : BitVec 32)
    let ones := fun (v : BitVec 32) (n : Nat) => ((List.range n).filter fun j => v.getLsbD j).length
    let sum := fun (n : Nat) (f : Nat → BitVec 32) => (List.range n).foldl (fun a k => a + f k) 0
    let lands := fun (i : Instr) (lat : Nat) (f : Nat → BitVec 32) (w : List Wr → Prop) => o.ins = i →
      ∃ (t : State) (r : Flight) (v : Row) (l : List Wr), exec (.vectorRowStart c false) s = .next t ∧ (t.core c).ctx.flights = x.flights ++ [r] ∧
        r.rem = lat ∧ r.wrs = .row td.val o.row v :: l ∧ w l ∧ (∀ k < 64, v.extractLsb' (32 * k) 32 = f k) ∧ (t.core c).ctx.tiles = x.tiles
    let none' := fun (l : List Wr) => l = []
    let byp := fun (q : Word → Prop) (l : List Wr) => ∃ m, l = [.byp Unit'.va.num m] ∧ q m
    let mask := fun (p : Nat → Bool) => byp fun m => ∀ k < 64, m.getLsbD k = p k
    let cmp := fun (q : VCond) (p : BitVec 32 → BitVec 32 → Bool) => cond = q → lands (.vcmp g (.tile td) (.tile ta) (.tile tb) cond rf nl) 2
      (fun k => if p (cell ta k) (cell tb k) then BitVec.allOnes 32 else 0) (mask fun k => p (cell ta k) (cell tb k))
    let first := fun (k : Nat) => (List.range k).all fun j => cell ta j != cell ta k
    let best := (List.range 64).foldl (fun b j => if (cell ta b).slt (cell ta j) then j else b) 0
    s.power = true → c < 256 → (s.core c).mode = .u → x.va.cur = some o → o.ty = .int32 → o.dead = false →
    lands (.vabs g (.tile td) (.tile ta) rf nl) 2 (fun k => if (cell ta k).msb then 0 - cell ta k else cell ta k) none' ∧
    lands (.vshr g (.tile td) (.tile ta) (.tile tb) true rf nl) 1 (fun k => (cell ta k).sshiftRight ((cell tb k).toNat % 32)) none' ∧
    lands (.vbcast g (.tile td) (.s sr) fmt rf nl) 1 (fun _ => o.a.extractLsb' 0 32) none' ∧
    lands (.vrow g (.tile td) (.tile ta) sf rf nl) 1
      (fun k => (x.row ta.val (sf.toNat + (o.row - rf.toNat))).extractLsb' (32 * k) 32) none' ∧
    lands (.vperm g (.tile td) (.tile ta) (.tile tb) rf nl) 2
      (fun k => cell ta (((x.row tb.val o.row).extractLsb' (8 * k) 8 : BitVec 8).toNat % 64)) none' ∧
    cmp .eq (fun a b => a == b) ∧ cmp .ne (fun a b => a != b) ∧ cmp .lt (fun a b => a.slt b) ∧ cmp .le (fun a b => a.sle b) ∧
    cmp .gt (fun a b => b.slt a) ∧ cmp .ge (fun a b => b.sle a) ∧ cmp .ltu (fun a b => a.ult b) ∧ cmp .leu (fun a b => a.ule b) ∧
    cmp .gtu (fun a b => b.ult a) ∧ cmp .geu (fun a b => b.ule a) ∧
    lands (.vsum g e (.tile td) (.tile ta) rm rf nl) 4 (fun k => if k = 0 then sum 64 (cell ta) else 0)
      (byp fun m => m = (sum 64 (cell ta)).setWidth 64) ∧
    lands (.vmaxr g e (.tile td) (.tile ta) arg rf nl) 4 (fun k => if k = 0 then cell ta best else 0)
      (byp fun m => m = if arg then BitVec.ofNat 64 best else (cell ta best).setWidth 64) ∧
    lands (.vband g (.tile td) (.tile ta) (.tile tb) rf nl) 1 (fun k => cell ta k &&& cell tb k) (mask fun k => cell ta k &&& cell tb k == 0) ∧
    lands (.vpopc g (.tile td) (.tile ta) rf nl) 2 (fun k => BitVec.ofNat 32 (ones (cell ta k) 32))
      (byp fun m => m = (sum 64 fun k => BitVec.ofNat 32 (ones (cell ta k) 32)).setWidth 64) ∧
    lands (.vpfx g (.tile td) (.tile ta) pc rf nl) 2 (fun k => o.acc.extractLsb' 0 32 + sum k fun j => BitVec.ofNat 32 (ones (cell ta j) 32))
      (byp fun m => m = (o.acc.extractLsb' 0 32 + sum 64 fun j => BitVec.ofNat 32 (ones (cell ta j) 32) : BitVec 32).setWidth 64) ∧
    lands (.vmscan g (.tile td) (.tile ta) (.tile tb) .add rm rf nl) 4
      (fun k => sum (k + 1) fun j => if cell ta j = cell ta k then cell tb j else 0) (mask first) ∧
    lands (.vmred g (.tile td) (.tile ta) (.tile tb) .add rm rf nl) 4
      (fun k => if first k then sum 64 fun j => if cell ta j = cell ta k then cell tb j else 0 else 0) (mask first) ∧
    (o.ins = .visect g e d (.tile ta) (.tile tb) pc rf nl →
      let rank := fun (t : Fin 8) (w j : Nat) => (List.range w).foldl (fun a i => a + ones (cell t i) 32) (ones (cell t w) j)
      let whole := fun (t : Fin 8) => (List.range 64).foldl (fun a i => a + ones (cell t i) 32) 0
      let value := fun (t : Fin 8) (i : Nat) => ((x.row t.val (i % 2 ^ 14 / 256)).extractLsb' (8 * (i % 256)) 8 : BitVec 8).toInt
      let total := (List.range 64).foldl (fun (a : Int) w => (List.range 32).foldl (fun (a : Int) j =>
        if (cell ta w).getLsbD j && (cell tb w).getLsbD j then
          a + value ta ((o.acc.extractLsb' 50 14).toNat + rank ta w j) * value tb ((o.acc.extractLsb' 36 14).toNat + rank tb w j) else a) a) 0
      ∃ (t : State) (m : Word), exec (.vectorRowStart c false) s = .next t ∧
        m.extractLsb' 0 32 = o.acc.extractLsb' 0 32 + BitVec.ofInt 32 total ∧ m.extractLsb' 32 4 = 0 ∧
        m.extractLsb' 36 14 = o.acc.extractLsb' 36 14 + BitVec.ofNat 14 (whole tb) ∧
        m.extractLsb' 50 14 = o.acc.extractLsb' 50 14 + BitVec.ofNat 14 (whole ta) ∧
        (o.row + 1 < (rowRange o.ins).2 → (t.core c).ctx.flights = x.flights ∧ (t.core c).ctx.va.cur = some { o with acc := m, row := o.row + 1 }) ∧
        (o.row + 1 = (rowRange o.ins).2 → ∃ r, (t.core c).ctx.flights = x.flights ++ [r] ∧ r.rem = 4 ∧ Wr.byp Unit'.va.num m ∈ r.wrs))) ∧
  (∀ (s : State) (c : Nat) (o : RowOp) (g : Guard) (td ta tb : Fin 8) (e : Bool) (pb pc : Port) (rm : Rnd) (cond : VCond) (fmt : Fmt)
    (rf : BitVec 6) (nl : BitVec 5),
    let x := (s.core c).ctx
    let cell := fun (t : Fin 8) (k : Nat) => ((x.row t.val o.row).extractLsb' (32 * k) 32 : BitVec 32)
    let val := fun (t : Fin 8) (k : Nat) => unpack .f32 (cell t k).toNat
    let fp8 := fun (t : Fin 8) (k : Nat) => unpackFz (x.afl.getLsbD 16) fmt ((x.row t.val o.row).extractLsb' (8 * k) 8 : BitVec 8).toNat
    let lands := fun (sfu : Bool) (i : Instr) (lat w n : Nat) (f : Nat → Nat → Prop) (q : List Wr → Prop) => o.ins = i →
      ∃ (t : State) (r : Flight) (v : Row) (l : List Wr), exec (.vectorRowStart c sfu) s = .next t ∧ (t.core c).ctx.flights = x.flights ++ [r] ∧
        r.rem = lat ∧ r.wrs = .row td.val o.row v :: l ∧ q l ∧ (∀ k < n, f k (v.extractLsb' (w * k) w).toNat) ∧ (t.core c).ctx.tiles = x.tiles
    let none' := fun (l : List Wr) => l = []
    let is := fun (f : Nat → Nat) (k y : Nat) => y = f k % 2 ^ 32
    let cmp := fun (q : VCond) (p : FV → FV → Bool) => cond = q → lands false (.vcmp g (.tile td) (.tile ta) (.tile tb) cond rf nl) 2 32 64
      (is fun k => if p (val ta k) (val tb k) then 2 ^ 32 - 1 else 0)
      (fun l => ∃ m, l = [Wr.byp Unit'.va.num m] ∧ ∀ k < 64, m.getLsbD k = p (val ta k) (val tb k))
    let sum := (roundF .f32 rm false (exactSum ((List.range 64).map (val ta)))).1
    let sf := fun (i : Instr) (lat : Nat) (f : Nat → Nat) => lands true i lat 32 64 (is f) none'
    let near := fun (isCos : Bool) (k y : Nat) => ∀ n m e, val ta k = .fin n m e → m ≠ 0 → (Nat.log2 m : Int) + e < 20 →
      let z := (roundF .f32 .rne false (sincosV isCos n m e)).1
      y / 2 ^ 31 = z / 2 ^ 31 % 2 ∧ y % 2 ^ 31 ≤ z % 2 ^ 31 + 2 ∧ z % 2 ^ 31 ≤ y % 2 ^ 31 + 2
    s.power = true → c < 256 → (s.core c).mode = .u → o.dead = false →
    (x.va.cur = some o → o.ty = .fp32 →
      lands false (.vmin g (.tile td) (.tile ta) (.tile tb) rf nl) 2 32 64 (is fun k => (fminmax .f32 false (cell ta k).toNat (cell tb k).toNat).1) none' ∧
      lands false (.vmax g (.tile td) (.tile ta) (.tile tb) rf nl) 2 32 64 (is fun k => (fminmax .f32 true (cell ta k).toNat (cell tb k).toNat).1) none' ∧
      lands false (.vabs g (.tile td) (.tile ta) rf nl) 2 32 64
        (is fun k => if (val ta k).isNaN then 0x7FC00000 else (cell ta k &&& 0x7FFFFFFF).toNat) none' ∧
      lands false (.vneg g (.tile td) (.tile ta) rf nl) 2 32 64
        (is fun k => if (val ta k).isNaN then 0x7FC00000 else (cell ta k ^^^ 0x80000000).toNat) none' ∧
      cmp .eq (fun a b => (fcmpHolds .eq a b).1) ∧ cmp .ne (fun a b => (fcmpHolds .ne a b).1) ∧ cmp .lt (fun a b => (fcmpHolds .lt a b).1) ∧
      cmp .le (fun a b => (fcmpHolds .le a b).1) ∧ cmp .gt (fun a b => (fcmpHolds .gt a b).1) ∧ cmp .ge (fun a b => (fcmpHolds .ge a b).1) ∧
      cmp .un (fun a b => (fcmpHolds .un a b).1) ∧ cmp .ord (fun a b => (fcmpHolds .ord a b).1) ∧
      lands false (.vsum g e (.tile td) (.tile ta) rm rf nl) 4 32 64 (is fun k => if k = 0 then sum else 0)
        (fun l => l = [Wr.byp Unit'.va.num (BitVec.ofNat 64 sum)]) ∧
      (o.grp = 0 → lands false (.vqnt g (.tile td) (.tile ta) pb .i8 rm rf nl) 4 8 64
        (fun k y => y = (qntLane rm 8 (val ta k) (.fin false 1 0) 0).1 % 2 ^ 8) none') ∧
      (o.ins = .vlsem g (.tile td) (.tile ta) (.tile tb) rf nl → o.row % 2 = 1 →
        let triple := fun (p : Row) (t : Fin 8) => (⟨(cell t 0).toNat, (cell t 1).toNat,
          (List.range 64).map fun k => (p.extractLsb' (32 * k) 32 : BitVec 32).toNat⟩ : Triple)
        let out := (lse2 (triple o.pa ta) (triple o.pb tb)).1
        ∃ (t : State) (r r' : Flight) (v v' : Row), exec (.vectorRowStart c false) s = .next t ∧ (t.core c).ctx.flights = x.flights ++ [r, r'] ∧
          r.rem = 6 ∧ r'.rem = 6 ∧ r.wrs = [.row td.val (o.row - 1) v] ∧ r'.wrs = [.row td.val o.row v'] ∧
          (∀ k < 64, (v.extractLsb' (32 * k) 32).toNat = out.a.getD k 0 % 2 ^ 32) ∧
          ∀ k < 64, (v'.extractLsb' (32 * k) 32).toNat = (if k = 0 then out.m else if k = 1 then out.s else 0) % 2 ^ 32)) ∧
    (x.va.cur = some o → o.ty = .int32 →
      (rm ≠ .sr → lands false (.vcvt g (.tile td) (.tile ta) pb .f32 rm rf nl) 3 32 64
        (is fun k => (roundMode .f32 rm (x.afl.getLsbD 17) (FV.ofInt (cell ta k).toInt 0)).1) none') ∧
      lands false (.vaddp8 g (.tile td) (.tile ta) (.tile tb) fmt rf nl) 3 8 256
        (fun k y => y = (roundF fmt .rne (x.afl.getLsbD 17) (FV.add .rne (fp8 ta k) (fp8 tb k))).1 % 2 ^ 8) none' ∧
      lands false (.vmulp8 g (.tile td) (.tile ta) (.tile tb) fmt rf nl) 3 8 256
        (fun k y => y = (roundF fmt .rne (x.afl.getLsbD 17) (FV.mul (fp8 ta k) (fp8 tb k))).1 % 2 ^ 8) none') ∧
    (x.va.cur = some o → o.grp = 0 → lands false (.vdq g (.tile td) (.tile ta) pb pc .i8 rm rf nl) 4 32 64
      (is fun k => (roundF .f32 rm false (FV.mul (FV.ofInt ((x.row ta.val o.row).extractLsb' (8 * k) 8 : BitVec 8).toInt 0)
        (unpack .f32 (o.c.extractLsb' 0 32).toNat))).1) none') ∧
    (x.sf.cur = some o → o.ty = .fp32 →
      sf (.exp2 g (.tile td) (.tile ta) rf nl) 6 (fun k => (roundF .f32 .rne false (exp2V (val ta k))).1) ∧
      sf (.rcp g (.tile td) (.tile ta) rm rf nl) 6 (fun k => (roundF .f32 rm false (FV.div (.fin false 1 0) (val ta k)).1).1) ∧
      sf (.rsqrt g (.tile td) (.tile ta) rm rf nl) 6 (fun k => (roundF .f32 rm false (FV.rsqrt (val ta k)).1).1) ∧
      sf (.sqrt g (.tile td) (.tile ta) rm rf nl) 8 (fun k => (roundF .f32 rm false (val ta k).sqrt).1) ∧
      lands true (.log2 g (.tile td) (.tile ta) rf nl) 6 32 64
        (fun k y => ∀ m e, val ta k = .fin false m e → m ≠ 0 → y = (roundF .f32 .rne false (log2V m e)).1 % 2 ^ 32) none' ∧
      lands true (.tanh g (.tile td) (.tile ta) rf nl) 8 32 64
        (fun k y => ∀ n m e, val ta k = .fin n m e → m ≠ 0 → y = (roundF .f32 .rne false (tanhV n m e)).1 % 2 ^ 32) none' ∧
      lands true (.sin g (.tile td) (.tile ta) rf nl) 10 32 64 (near false) none' ∧
      lands true (.cos g (.tile td) (.tile ta) rf nl) 10 32 64 (near true) none'))

/-- VECTOR_ROW_LANDING, PAIR_NORM_LANDING, PAIR_DIRECTION_LANDING: what is due lands where it was bound: a row in its tile, a
norm, a direction; nothing else of the files changes. -/
def Obligations.RowsAndPairsLand : Prop :=
  ∀ (s : State) (c : Nat) (f : Flight), s.power = true → c < 256 → (s.core c).ctx.flights = [f] → f.rem = 0 → f.flags = 0 →
    (∀ (t : Fin 8) (r : Fin 64) (v : Row), f.wrs = [.row t.val r.val v] →
      ∃ z, exec (.vectorRowLanding c) s = .next z ∧ (z.core c).ctx.row t.val r.val = v ∧ (z.core c).ctx.flights = [] ∧
        (∀ t' r', ¬(t' = t.val ∧ r' = r.val) → (z.core c).ctx.row t' r' = (s.core c).ctx.row t' r') ∧ SameBytes s z) ∧
    (∀ (j : Fin 16) (v : Word32), f.wrs = [.norm j.val v] →
      ∃ z, exec (.pairNormLanding c) s = .next z ∧ vget (z.core c).ctx.norms j.val 0 = v ∧ (z.core c).ctx.dirs = (s.core c).ctx.dirs ∧
        (∀ k, k ≠ j.val → vget (z.core c).ctx.norms k 0 = vget (s.core c).ctx.norms k 0) ∧ SameBytes s z) ∧
    (∀ (j : Fin 16) (v : Row), f.wrs = [.dir j.val v] →
      ∃ z, exec (.pairDirectionLanding c) s = .next z ∧ vget (z.core c).ctx.dirs j.val 0 = v ∧ (z.core c).ctx.norms = (s.core c).ctx.norms ∧
        (∀ k, k ≠ j.val → vget (z.core c).ctx.dirs k 0 = vget (s.core c).ctx.dirs k 0) ∧ SameBytes s z)

/-- R172, R178 to R186: a pair write puts its norm in flight for 2 cycles, with the operation's flags, and its direction for 4,
and writes no bypass register. The pair is what the instruction computes from the directions, norms and scalars read at issue,
where that is a state of R170; what a torn read or a norm of −∞ would leave beside them is written as the zero code or the NaN
pair, which is the model's choice (notes/assumptions/91.md). R177, R180 to R186: the scalar results of dv and their latencies:
DCOS and DCMP 3, DDOTW and DJOIN 4, DNGET 1. DCMP's result is chosen by comparing the cosine (or a scalar) with C. The flags of
DCOS land beside those of DCMP's own compare (notes/assumptions/54.md). R179: DTO puts a direction's 128 lanes into rows of a tile
in flight for 6 cycles: one row of a BF16-pair tile, or two of an FP32 tile. A void tile takes the tag. -/
def Obligations.DirectionResults : Prop :=
  (∀ (s : State) (g : Guard) (j : Fin 16) (a b c : Port) (rf : BitVec 6),
    let x := s.ctx
    let pair := fun (i : Instr) (p : Pair) => Acts s i → exec i s = .next (acted s i fun t =>
      (t.launch .dv 4 2 p.fit.f [.norm j.val (BitVec.ofNat 32 p.fit.n)]).launch .dv 4 4 0 [.dir j.val (packDir p.fit.d)])
    pair (.dscl g (.d j) a b) (dsclOf false (x.dirOf a) (x.normOf a) (x.f32 b)) ∧
    pair (.dadd g (.d j) a b) (daddOf false (x.dirOf a) (x.dirOf b) (x.normOf a) (x.normOf b)) ∧
    pair (.dsub g (.d j) a b) (daddOf true (x.dirOf a) (x.dirOf b) (x.normOf a) (x.normOf b)) ∧
    pair (.dlerp g (.d j) a b c) (dlerpOf (x.dirOf a) (x.dirOf b) (x.normOf a) (x.normOf b) (x.f32 c)) ∧
    pair (.dneg g (.d j) a) (dnegOf (x.dirOf a) (x.normOf a)) ∧
    pair (.dnset g (.d j) a) (dnsetOf (x.dirOf (.d j)) (x.normOf (.d j)) (x.f32 a)) ∧
    pair (.dsplit g (.d j) a b) (dsclOf true (x.dirOf a) (x.normOf a) (x.f32 b)) ∧
    pair (.dfrom g (.d j) a rf) (dfromOf (dfromLanes x a rf.toNat)) ∧
    ∀ p : Pair, (p.d.all (· == 0) = true → p.fit.n = 0xFF800000 ∨ (unpack .f32 p.fit.n).isNaN = true) ∧
      (p.d.all (· == 0) = false → p.n ≠ 0xFF800000 → (unpack .f32 p.n).isNaN = false → p.fit = p) ∧
      (p.fit.n = 0xFF800000 ∨ (unpack .f32 p.fit.n).isNaN = true → p.fit.d.all (· == 0) = true) ∧ p.fit.f = p.f) ∧
  (∀ (s : State) (g : Guard) (e : Bool) (d a b c : Port) (act1 act0 : BitVec 2) (act : Bool) (cond : FCond),
    let x := s.ctx
    let gives := fun (i : Instr) (lat v : Nat) (f : FlagSet) => Acts s i → exec i s = .next (acted s i fun t =>
      t.result .dv 4 lat e d (BitVec.ofNat 64 v) f)
    let cosine := match a with | .d _ => dcosOf (x.dirOf a) (x.dirOf b) | _ => (x.f32 a, 0)
    let cmp := fcmpHolds cond (unpack .f32 cosine.1) (unpack .f32 (x.f32 c))
    gives (.dcos g e d a b) 3 (dcosOf (x.dirOf a) (x.dirOf b)).1 (dcosOf (x.dirOf a) (x.dirOf b)).2 ∧
    gives (.ddotw g e d a b) 4 (ddotwOf (x.dirOf a) (x.dirOf b) (x.normOf a) (x.normOf b)).1
      (ddotwOf (x.dirOf a) (x.dirOf b) (x.normOf a) (x.normOf b)).2 ∧
    gives (.dnget g e d a) 1 (x.normOf a) 0 ∧
    gives (.djoin g e d a b) 4 (djoinOf (x.f32 a) (x.f32 b) (isScalarSrc a) (isScalarSrc b)).1
      (djoinOf (x.f32 a) (x.f32 b) (isScalarSrc a) (isScalarSrc b)).2 ∧
    gives (.dcmp g e d a b c act1 act0 act cond) 3 (dcmpWord act.toNat act1.toNat act0.toNat cmp.1) (cosine.2 ||| cmp.2)) ∧
  (∀ (s : State) (g : Guard) (r : Fin 8) (j : Fin 16) (rm : Rnd) (rf : BitVec 6), s.cur < 256 →
    let out := fun (f : Fmt) => (dirLanes (s.ctx.dirOf (.d j))).map (dtoLane f rm (s.ctx.normOf (.d j)))
    (Acts s (.dto g (.tile r) (.d j) .bf16 rm rf) → ∃ t, exec (.dto g (.tile r) (.d j) .bf16 rm rf) s = .next t ∧
      t.ctx.flights = s.ctx.flights ++
        [⟨s.nextId, 6, .dv, 4, joinFlags (out .bf16), [.row r.val rf.toNat (packRow 16 ((out .bf16).map (·.1)))]⟩] ∧
      (s.ctx.tagOf (.tile r) = .void → t.ctx.tagOf (.tile r) = .bf16)) ∧
    (Acts s (.dto g (.tile r) (.d j) .f32 rm rf) → ∃ t, exec (.dto g (.tile r) (.d j) .f32 rm rf) s = .next t ∧
      t.ctx.flights = s.ctx.flights ++
        [⟨s.nextId, 6, .dv, 4, joinFlags ((out .f32).take 64), [.row r.val rf.toNat (packRow 32 (((out .f32).take 64).map (·.1)))]⟩,
         ⟨s.nextId, 6, .dv, 4, joinFlags ((out .f32).drop 64), [.row r.val (rf.toNat + 1) (packRow 32 (((out .f32).drop 64).map (·.1)))]⟩] ∧
      (s.ctx.tagOf (.tile r) = .void → t.ctx.tagOf (.tile r) = .fp32)))

/-- R194, R198, R204 to R210, R213: an mx operation that acts joins mx's queue with the scalar operands its ports have at issue,
its destination tile takes the tag the operation gives it, and its claims are made on the bobbins. No row and no byte changes yet.
Of these only MSTASH is performed once: here no checkpoint is open. R211, R200: MQRY waits while an mx operation has not retired;
it then lands the residency mask of a tile, DROW or DCOL after two cycles. R212: MSYNC waits while an mx operation has not
retired, and has no other effect. -/
def Obligations.MatrixInstructionsIssue : Prop :=
  (∀ (s : State) (g : Guard) (d a b c f : Port) (fmt : Fmt) (rm : Rnd) (keep ka kb : Bool) (depth : BitVec 8) (n : BitVec 5),
    s.me.ckpt = none → s.cur < 256 →
    let v := fun p => s.ctx.val p
    let scale := fun (p : Port) => if p = .z then (0x3F800000 : Word) else v p
    let queues := fun (i : Instr) (x y z w : Word) => Acts s i → ∃ (t : State) (o : Op), exec i s = .next t ∧
      t.me.mxq = s.me.mxq ++ [o] ∧ o.ins = i ∧ o.id = s.nextId ∧ o.a = x ∧ o.b = y ∧ o.c = z ∧ o.f = w ∧
      t.ctx.tiles = (s.ctx.mxIssueTag i).tiles ∧ t.ctx.bob = (s.ctx.mxClaim s.nextId (mxClaims i)).bob ∧
      t.me.outst = s.me.outst + (if countsOutstanding i then 1 else 0) ∧ t.ctx.s = s.ctx.s ∧ t.ctx.flights = s.ctx.flights ∧ SameBytes s t
    queues (.mzero g d fmt) 0 0 0 0 ∧ queues (.mload g d a keep) 0 0 0 0 ∧
    queues (.mma g d a b c f ka kb depth) 0 0 (v c) (v f) ∧ queues (.mmat g d a b c f ka kb depth) 0 0 (v c) (v f) ∧
    queues (.mmask g a b) (v a) (v b) 0 0 ∧ queues (.mdrain g d a b rm) 0 (scale b) 0 0 ∧ queues (.mstep g d a b c n) 0 0 0 0 ∧
    queues (.mstash g d a b c) 0 (v b) (v c) 0 ∧ queues (.munst g d a b c) 0 (v b) (v c) 0 ∧
    queues (.mfmt g d a b fmt rm) 0 (scale b) 0 0) ∧
  (∀ (s : State) (g : Guard) (e : Bool) (d a : Port) (r : Fin 8),
    (∀ sl : BitVec 3, s.me.mxOps ≠ [] → s.ctx.guard g = true → loneVerdict s (.mqry g e d a sl) ≠ .go) ∧
    (Acts s (.mqry g e d (.tile r) 0) → exec (.mqry g e d (.tile r) 0) s = .next (acted s (.mqry g e d (.tile r) 0) fun t =>
      t.result .mx 5 2 e d (s.ctx.tile r.val).resid 0)) ∧
    (Acts s (.mqry g e d a 1) → exec (.mqry g e d a 1) s = .next (acted s (.mqry g e d a 1) fun t => t.result .mx 5 2 e d s.ctx.drow 0)) ∧
    (Acts s (.mqry g e d a 2) → exec (.mqry g e d a 2) s = .next (acted s (.mqry g e d a 2) fun t => t.result .mx 5 2 e d s.ctx.dcol 0))) ∧
  (∀ (s : State) (g : Guard),
    (s.me.mxOps ≠ [] → s.ctx.guard g = true → loneVerdict s (.msync g) ≠ .go) ∧
    (Acts s (.msync g) → exec (.msync g) s = .next (acted s (.msync g) id)))

/-- R206, whole: MZERO tags its tile at issue, FP32, FP64 or INT32 by its format, and a slot word of MZERO with any other code in
FMT decodes to the format error, with which the bundle's checks find cause 0x04D of that slot; it occupies the array for one
cycle; at retirement every row is zero bits and resident, the tag stands, and mx.y is not written. -/
def Obligations.MzeroResult : Prop :=
  (∀ (s : State) (g : Guard) (r : Fin 8) (fmt : Fmt), Acts s (.mzero g (.tile r) fmt) → s.cur < 256 →
    ∃ t, exec (.mzero g (.tile r) fmt) s = .next t ∧
      (fmt = .f32 → t.ctx.tagOf (.tile r) = .fp32) ∧ (fmt = .f64 → t.ctx.tagOf (.tile r) = .fp64) ∧
      (fmt = .i32 → t.ctx.tagOf (.tile r) = .int32)) ∧
  (∀ (g : Guard) (d : Port) (fmt : Fmt), fmt ≠ .f32 → fmt ≠ .f64 → fmt ≠ .i32 → (Instr.mzero g d fmt).wf = false) ∧
  (∀ (w : SlotWord) (stop : Bool), w.extractLsb' 55 8 = 0x01 → w.extractLsb' 14 4 ≠ 0 → w.extractLsb' 14 4 ≠ 1 → w.extractLsb' 14 4 ≠ 6 →
    (∃ why i, decodeSlot 5 w = .bad why i ∧ .format ∈ why) ∧
    ∃ f ∈ encodingFound [⟨5, stop, decodeSlot 5 w⟩], f.code = 0x04D ∧ f.mask = 0x20) ∧
  (∀ (s : State) (c : Nat) (o : Op) (g : Guard) (r : Fin 8) (fmt : Fmt), o.ins = .mzero g (.tile r) fmt → c < 256 →
    ∀ y, ((mxBegin s c o).core c).mx = some y → y.left = 1 ∧ y.op = o) ∧
  (∀ (s : State) (c : Nat) (y : MxRun) (g : Guard) (r : Fin 8) (fmt : Fmt), s.power = true → c < 256 → (s.core c).mode = .u →
    (s.core c).mx = some y → y.op.ins = .mzero g (.tile r) fmt → y.left = 0 → y.step = 0 → y.afl = 0 →
    ∃ t, exec (.mxOperationRetire c) s = .next t ∧ (t.core c).mx = none ∧ (t.core c).ctx.byp = (s.core c).ctx.byp ∧
      (∀ n < 64, (t.core c).ctx.row r.val n = 0) ∧ ((t.core c).ctx.tile r.val).resid = BitVec.allOnes 64 ∧
      (t.core c).ctx.tagOf (.tile r) = (s.core c).ctx.tagOf (.tile r))

/-- R198, R205, R213, R214: the array takes the oldest queued operation once it is idle and the operation needs no slot: an MMASK
runs for one cycle. A finished MSTEP step pops its input and decay slots and the next step is due. MUNST's rows, read from HBM,
land once the array is idle and become resident. MSTASH's rows are written to HBM, and then it ends: both with their completion
(R281). All rows in one event (notes/assumptions/50.md), the end of MSTASH (notes/assumptions/84.md), when the array reads AFL and
which rows MFMT writes (notes/assumptions/96.md) are the model's. R208: the drain masks are set when MMASK retires, to A and B as
read at its issue, and mx.y is not written. R82 to R87, R201, R204, R205, R209, R210: what the array computes. An operation whose
slots have landed starts and computes the rows that are resident; the mask of the others is what mx.y will hold. In an INT8
multiply each lane of such a row is its old value plus the sum of the live products, modulo 2^32; a row masked off by C keeps its
lanes in F16, F8 and F32, −0 become +0. MDRAIN and MFMT convert each lane times the scale, rounded once. An MSTEP step scales its
rows by their decay, or by nothing where the side band resets them, and accumulates. At retirement the rows are the tile's, and
MDRAIN's lanes that no mask takes out are in its slot's bytes, no others changed. -/
def Obligations.ArrayEvents : Prop :=
  (∀ (s : State) (c : Nat) (o : Op) (r : MxRun) (l : List Op) (g : Guard) (d a b cc : Port) (n : BitVec 5),
    s.power = true → c < 256 → (s.core c).mode = .u →
    ((s.core c).mx = none → (s.core c).mxq = o :: l → o.ins = .mmask g a b →
      ∃ t y, exec (.mxOperationStart c) s = .next t ∧ (t.core c).mxq = l ∧ (t.core c).mx = some y ∧ y.op = o ∧ y.left = 1 ∧
        SameBytes s t) ∧
    ((s.core c).mx = some r → r.op.ins = .mstep g d a b cc n → r.left = 0 → r.step % 2 = 0 → r.step / 2 < n.toNat →
      bOf a < 16 → bOf cc ≠ bOf a →
      ∃ t, exec (.mstepStepEnd c) s = .next t ∧ (t.core c).mx = some { r with step := r.step + 1 } ∧
        (t.core c).ctx.bobbin (bOf a) = ((s.core c).ctx.bobbin (bOf a)).release r.op.id ∧
        (∀ k, k ≠ bOf a → k ≠ bOf cc → (t.core c).ctx.bobbin k = (s.core c).ctx.bobbin k) ∧ SameBytes s t) ∧
    (∀ rows, (s.core c).mx = none → (s.core c).stash = [o] → o.ins = .munst g d a b cc →
      fencedBefore (s.core c) o = false → readsInOrder s o = true →
      unstRead (s.modCore c fun x => { x with stash := [] }) o (maskRows o.f) 0 = .ok rows →
      exec (.munstRowsLand c) s = .next (completeOp (((maskRows o.f).foldl (fun s m => s.useRange o.core o.part (o.stashVa m))
        (s.modCore c fun x => { x with stash := [] })).modCtxFor c o.id fun x =>
          (x.landRows o (tOf a) rows).modTile (tOf a) fun y => { y with resid := y.resid ||| o.f }) o)) ∧
    ((s.core c).stash = [o] → o.ins = .mstash g d a b cc → o.orig = none → stashLets s o = true →
      (stashWrite o (maskRows o.f) o.data 0 s).fail = none →
      exec (.mstashWritesComplete c) s = .next (endOp ((stashWrite o (maskRows o.f) o.data 0 s).st.modCore c fun x =>
        { x with stash := removeOp o.id x.stash }) o))) ∧
  (∀ (s : State) (c : Nat) (y : MxRun) (g : Guard) (a b : Port), s.power = true → c < 256 → (s.core c).mode = .u →
    (s.core c).mx = some y → y.op.ins = .mmask g a b → y.left = 0 → y.step = 0 → y.afl = 0 →
    ∃ t, exec (.mxOperationRetire c) s = .next t ∧ (t.core c).mx = none ∧ (t.core c).ctx.drow = y.op.a ∧ (t.core c).ctx.dcol = y.op.b ∧
      (t.core c).ctx.byp = (s.core c).ctx.byp ∧ (t.core c).ctx.tiles = (s.core c).ctx.tiles ∧ SameBytes s t) ∧
  (∀ (s : State) (c : Nat) (o : Op) (l : List Op) (y : MxRun) (g : Guard) (td ta : Fin 8) (ba bb bc : Fin 16) (pc pf : Port) (ka kb : Bool)
    (depth : BitVec 8) (fmt : Fmt) (rm : Rnd) (n' : BitVec 5) (m : Nat) (v : Row), s.power = true → c < 256 → (s.core c).mode = .u →
    let x := (s.core c).ctx
    let w := fmtWidth fmt
    let slotOf := fun (b : Fin 16) => ((x.bobbin b.val).claimed o.id).getD 0
    let code := fun (b : Fin 16) (i j : Nat) => sextNat 8 (slotElem s c (x.bobbin b.val) (slotOf b) i j)
    let cell := fun (t : Fin 8) (m k : Nat) => ((x.row t.val m).extractLsb' (32 * k) 32 : BitVec 32)
    let mode := matMode (x.bobbin ba.val) (x.bobbin bb.val)
    let resid := fun (t : Fin 8) (m : Nat) => (x.tile t.val).resid.getLsbD m
    let live := fun (m n j : Nat) => !o.c.getLsbD m && !o.f.getLsbD n && (depth.toNat == 0 || decide (j < depth.toNat))
    let starts := fun (i : Instr) (t : Fin 8) (f : State → MxRun → Prop) => o.ins = i → (s.core c).mx = none → (s.core c).mxq = o :: l →
      mxReady (s.core c) o = .yes → ∃ t' r, exec (.mxOperationStart c) s = .next t' ∧ (t'.core c).mx = some r ∧ (t'.core c).mxq = l ∧
        r.nr = ~~~(x.tile t.val).resid ∧ SameBytes s t' ∧ f t' r
    let rows := fun (keep : Nat → Bool) (f : Nat → Row → Prop) (r : MxRun) => (∀ e ∈ r.rows, e.1 < 64 ∧ keep e.1 = true) ∧
      ∀ m < 64, keep m = true → ∃ v, (m, v) ∈ r.rows ∧ f m v
    let i8 := fun (b : Nat → Nat → Int) => rows (resid td) fun m v => ∀ n < 64, v.extractLsb' (32 * n) 32 = cell td m n +
      BitVec.ofInt 32 ((List.range 128).foldl (fun a j => if live m n j then a + code ba m j * b n j else a) 0)
    let off := rows (resid td) fun m v => o.c.getLsbD m = true → ∀ n < 64,
      v.extractLsb' (32 * n) 32 = if cell td m n = 0x80000000 then (0 : BitVec 32) else cell td m n
    let scaled := fun (m k : Nat) => (roundMode fmt rm (x.afl.getLsbD 17) (FV.mul (o.tag.valueOf
      ((x.row ta.val m).extractLsb' (o.tag.width * k) o.tag.width).toNat) (unpack .f32 (o.b.extractLsb' 0 32).toNat))).1 % 2 ^ w
    let fp := mode = some .f16 ∨ mode = some .f8 ∨ mode = some .f32
    let done := fun (i : Instr) (f : State → Prop) => y.op.ins = i → (s.core c).mx = some y → y.left = 0 → y.step = 0 → y.afl = 0 → y.rows = [(m, v)] →
      m < 64 → ∃ t, exec (.mxOperationRetire c) s = .next t ∧ (t.core c).mx = none ∧ vget (t.core c).ctx.byp 6 0 = y.nr ∧ f t
    let tile := fun (t : State) => y.op.dead = false → SameBytes s t ∧ (t.core c).ctx.row td.val m = v ∧
      ∀ (u : Fin 8) (k : Nat), (u, k) ≠ (td, m) → (t.core c).ctx.row u.val k = x.row u.val k
    let at' := fun (n : Nat) => (x.bobbin bb.val).slotAddr y.op.slot + (x.bobbin bb.val).nibbleOf m n / 2
    let mma := Instr.mma g (.tile td) (.b ba) (.b bb) pc pf ka kb depth
    let mmat := Instr.mmat g (.tile td) (.b ba) (.b bb) pc pf ka kb depth
    (mode = some .i8 → starts mma td (fun _ r => r.left = 32 ∧ i8 (fun n j => code bb j n) r)) ∧
    (mode = some .i8 → starts mmat td (fun _ r => r.left = 32 ∧ i8 (fun n j => code bb n j) r)) ∧
    (fp → starts mma td (fun _ r => off r)) ∧ (fp → starts mmat td (fun _ r => off r)) ∧
    ((x.bobbin bb.val).fmt = some fmt → starts (.mdrain g (.b bb) (.tile ta) pc rm) ta fun t r => r.left = 16 ∧ r.op.slot = (x.bobbin bb.val).head ∧
      (t.core c).ctx.bobbin bb.val = (x.bobbin bb.val).reserve .reserved ∧
      rows (fun m => resid ta m && !x.drow.getLsbD m) (fun m v => ∀ k < o.tag.lanes, w * (k + 1) ≤ 2048 → x.dcol.getLsbD k = false →
        (v.extractLsb' (w * k) w).toNat = scaled m k) r) ∧
    starts (.mfmt g (.tile td) (.tile ta) pc fmt rm) ta (fun _ r => r.left = 16 ∧
      rows (resid ta) (fun m v => ∀ k < o.tag.lanes, w * (k + 1) ≤ 2048 → (v.extractLsb' (w * k) w).toNat = scaled m k) r) ∧
    (∀ md, mode = some md → starts (.mstep g (.tile td) (.b ba) (.b bb) (.b bc) n') td fun _ r => r.left = md.occ ∧ r.step = 0 ∧
      rows (resid td) (fun m v =>
        let rst := (x.bobbin ba.val).sb && bitAt (readNat s (.core c) ((x.bobbin ba.val).sideAddr (slotOf ba)) 8) m
        let decay := unpack .f32 (slotElem s c (x.bobbin bc.val) (slotOf bc) 0 m)
        v = (matRow s c ⟨x.bobbin ba.val, x.bobbin bb.val, slotOf ba, slotOf bb, false, 0, 0, 0⟩ md m (packRow 32 ((List.range 64).map fun k =>
          (roundF .f32 .rne false (FV.mul decay (unpack .f32 (if rst then 0 else (cell td m k).toNat)))).1))).1) r) ∧
    done mma tile ∧ done mmat tile ∧ done (.mfmt g (.tile td) (.tile ta) pc fmt rm) tile ∧
    (s.memOk = true → (s.core c).ckpt = none → (x.bobbin bb.val).fmt = some .f32 → (∀ n < (x.bobbin bb.val).cols, at' n + 4 ≤ 0x200000) →
      (∀ i < (x.bobbin bb.val).cols, ∀ j < i, at' i + 4 ≤ at' j ∨ at' j + 4 ≤ at' i) →
      done (.mdrain g (.b bb) (.tile ta) pc rm) fun t =>
        (t.core c).ctx.bobbin bb.val = (x.bobbin bb.val).setSlot y.op.slot .landed ∧ (t.core c).ctx.tiles = x.tiles ∧
        (∀ n < min (x.bobbin bb.val).cols y.op.tag.lanes, x.dcol.getLsbD n = false →
          readNat t (.core c) (at' n) 4 = (v.extractLsb' (32 * n) 32).toNat) ∧
        ∀ sp a, spaceExists sp → a < sp.size → ¬(sp = .core c ∧ ∃ n < min (x.bobbin bb.val).cols y.op.tag.lanes,
          x.dcol.getLsbD n = false ∧ at' n ≤ a ∧ a < at' n + 4) → readByte t sp a = readByte s sp a))

/-! ## Memory units -/

/-- R229: LDS and STS take their address at issue, A plus C plus the signed offset, and access memory one cycle later. STS then
stores the low bytes of B and nothing else; LDS's value, zero- or sign-extended, lands three cycles after the access. -/
def Obligations.ScratchpadLoadStore : Prop :=
  (∀ (s : State) (g : Guard) (e sx : Bool) (d a b c : Port) (sz : BitVec 2) (off : BitVec 12),
    (Acts s (.lds g e d a c sz sx off) → exec (.lds g e d a c sz sx off) s = .next (acted s (.lds g e d a c sz sx off) fun t =>
      t.launch .ag 2 1 0 [.load (ldsAddr s.ctx a c off).toNat (2 ^ sz.toNat) sx d e])) ∧
    (Acts s (.sts g a b c sz off) → exec (.sts g a b c sz off) s = .next (acted s (.sts g a b c sz off) fun t =>
      t.launch .ag 2 1 0 [.store (ldsAddr s.ctx a c off).toNat (2 ^ sz.toNat) (s.ctx.val b) s.nextId]))) ∧
  (∀ (s : State) (c a n id : Nat) (f : Flight) (v : Word), s.memOk = true → s.power = true → c < 256 → (s.core c).ctx.flights = [f] → f.rem = 0 →
    f.flags = 0 → f.unit = .ag → f.wrs = [.store a n v id] → (s.core c).ckpt = none → a + n ≤ 0x200000 → n ≤ 8 →
    ∃ t, exec (.resultLanding c) s = .next t ∧ readNat t (.core c) a n = v.toNat % 2 ^ (8 * n) ∧
      (∀ sp b, spaceExists sp → b < sp.size → ¬(sp = .core c ∧ a ≤ b ∧ b < a + n) → readByte t sp b = readByte s sp b) ∧
      (t.core c).ctx.s = (s.core c).ctx.s ∧ (t.core c).ctx.byp = (s.core c).ctx.byp) ∧
  (∀ (s : State) (c a n : Nat) (f : Flight) (d : Port) (e sx : Bool), s.power = true → c < 256 → (s.core c).ctx.flights = [f] →
    f.rem = 0 → f.flags = 0 → f.unit = .ag → f.wrs = [.load a n sx d e] →
    ∃ t, exec (.resultLanding c) s = .next t ∧ SameBytes s t ∧ (t.core c).ctx.flights = [{ f with
      rem := 3
      wrs := destWrs .ag e d (if sx then BitVec.ofInt 64 (sextNat (8 * n) (readNat s (.core c) a n))
        else BitVec.ofNat 64 (readNat s (.core c) a n)) }])

/-- R197: BSET, BPUSH and BPOP land one cycle later, with their operands as read at issue; BQRY lands CFG, LOC, PTR or the side
offsets after two. R190, R197: what a landing BPUSH and BPOP do to a bobbin's ring: n slots more landed at HEAD, or n fewer from
TAIL; a push of more than the free slots or a pop of more than CNT changes nothing and makes cause 0x0F2 due at the core's next
report point. -/
def Obligations.BobbinResults : Prop :=
  (∀ (s : State) (g : Guard) (e : Bool) (d a b : Port) (r : Fin 16) (sl : BitVec 3),
    let bo := s.ctx.bobbin r.val
    (Acts s (.bset g (.b r) a b) → exec (.bset g (.b r) a b) s = .next (acted s (.bset g (.b r) a b) fun t =>
      t.launch .ag 2 1 0 [.bset r.val (s.ctx.val a) (s.ctx.val b)])) ∧
    (Acts s (.bpush g (.b r) a) → exec (.bpush g (.b r) a) s = .next (acted s (.bpush g (.b r) a) fun t =>
      t.launch .ag 2 1 0 [.bpush r.val (s.ctx.val a) s.nextId])) ∧
    (Acts s (.bpop g (.b r) a) → exec (.bpop g (.b r) a) s = .next (acted s (.bpop g (.b r) a) fun t =>
      t.launch .ag 2 1 0 [.bpop r.val (s.ctx.val a)])) ∧
    (Acts s (.bqry g e d (.b r) sl) → exec (.bqry g e d (.b r) sl) s = .next (acted s (.bqry g e d (.b r) sl) fun t =>
      t.result .ag 2 2 e d (if sl = 0 then bo.cfg else if sl = 1 then bo.loc else if sl = 2 then bo.ptr
        else BitVec.ofNat 64 (bo.zbo.toNat * 2 ^ 32 + bo.sbo.toNat)) 0))) ∧
  (∀ (s : State) (c : Nat) (f : Flight) (r : Fin 16) (n : Word), s.power = true → c < 256 → (s.core c).ctx.flights = [f] →
    f.rem = 0 → f.flags = 0 → f.unit = .ag →
    let bo := (s.core c).ctx.bobbin r.val
    (f.wrs = [.bpop r.val n] →
      (n.toNat ≤ bo.cnt → ∃ t, exec (.resultLanding c) s = .next t ∧ ((t.core c).ctx.bobbin r.val).cnt = bo.cnt - n.toNat ∧
        (bo.tail < bo.cap → ((t.core c).ctx.bobbin r.val).tail = (bo.tail + n.toNat) % bo.cap) ∧ SameBytes s t) ∧
      (bo.cnt < n.toNat → ∃ t, exec (.resultLanding c) s = .next t ∧ (t.core c).ctx.bobbin r.val = bo ∧
        (t.core c).held = (s.core c).held ++ [⟨0x0F2, 0x04, 0, 0, 0, true, false⟩])) ∧
    (∀ id, f.wrs = [.bpush r.val n id] → (s.core c).ag = [] →
      (n.toNat ≤ bo.cap - bo.cnt → ∃ t, exec (.resultLanding c) s = .next t ∧ ((t.core c).ctx.bobbin r.val).cnt = bo.cnt + n.toNat ∧
        ((t.core c).ctx.bobbin r.val).tail = bo.tail ∧ SameBytes s t) ∧
      (bo.cap - bo.cnt < n.toNat → ∃ t, exec (.resultLanding c) s = .next t ∧ (t.core c).ctx.bobbin r.val = bo ∧
        (t.core c).held = (s.core c).held ++ [⟨0x0F2, 0x04, 0, 0, 0, true, false⟩])))

/-- R193, R194, R230, R233: a fill reserves the slot at its bobbin's HEAD and a store claims the slot at TAIL + QP; each joins
ag's queue with its handle as read at issue, moved by B for TLD and TST, counts as an outstanding copy and stores nothing yet.
Here no checkpoint is open. R193 to R195: as a bundle of its own a fill acts with a slot free, a store with one to claim, so that
CNT and QP stay at most CAP. -/
def Obligations.TileTransfersQueue : Prop :=
  ∀ (s : State) (g : Guard) (d b k : Port) (r : Fin 16) (ha : Fin 32), s.me.ckpt = none → s.cur < 256 →
    let bo := s.ctx.bobbin r.val
    let h := s.ctx.handle ha.val
    let queues := fun (i : Instr) (hh : HandleBits) (v : Word) (slot : Nat) (after : Bobbin) => Acts s i →
      ∃ (t : State) (o : Op), exec i s = .next t ∧ t.me.ag = s.me.ag ++ [o] ∧ o.ins = i ∧ o.id = s.nextId ∧ o.ha = hh ∧ o.b = v ∧
        o.slot = slot ∧ o.phase = .queued ∧ t.ctx.bobbin r.val = after ∧ t.me.outst = s.me.outst + 1 ∧ t.ctx.s = s.ctx.s ∧
        (∀ j, j ≠ r.val → t.ctx.bobbin j = s.ctx.bobbin j) ∧ SameBytes s t
    queues (.tld g (.b r) (.h ha) b k) (tileHandle h (s.ctx.val b)) 0 bo.head (bo.reserve .reserved) ∧
    queues (.tldg g (.b r) (.h ha) b k) h (s.ctx.val b) bo.head (bo.reserve .reserved) ∧
    queues (.tst g d (.h ha) b (.b r)) (tileHandle h (s.ctx.val b)) 0 bo.nextClaim (bo.claim s.nextId false) ∧
    queues (.tsts g d (.h ha) b (.b r)) h (s.ctx.val b) bo.nextClaim (bo.claim s.nextId false) ∧
    (∀ i : Instr, s.me.committing = false → bo.v = true → issueFills r.val i ≠ 0 → Acts s i → bo.cnt < bo.cap) ∧
    (∀ i : Instr, s.me.committing = false → bo.v = true → issueClaims r.val i ≠ 0 → Acts s i → bo.qp < bo.cap)

/-- TRANSFER_START, FILL_SLOT_LANDED, TRANSFER_COMPLETE, STORE_SLOT_POP: ag starts the oldest transfer that is ready; a fill's
data arrive in its slot, which is then landed; a fill ends once its slot has landed; a store, once everything its core issued
before is performed, writes its bytes and ends; and the slot a finished store has claimed is popped. A failed row leaves its slot
failed. All rows moved in one event, and a failed row that lets the rest go on, are the model's (notes/assumptions/88.md). -/
def Obligations.TransferEvents : Prop :=
  ∀ (s s1 : State) (c : Nat) (o o1 : Op) (l : List Op) (b n : Nat), s.power = true → c < 256 → o.core = c → Plain s o →
    ((s.core c).ag = o :: l → o.phase = .queued → isAtom o.ins = false → agReady s o = true → (∀ p ∈ l, p.id ≠ o.id) →
      ∃ t d, exec (.transferStart c false) s = .next t ∧ (t.core c).ag = { o with phase := .started, data := d } :: l ∧
        (t.core c).ctx = (s.core c).ctx ∧ SameBytes s t) ∧
    ((s.core c).ce = [o] → (s.core c).taken = [] → isTmv o.ins = true → (s.core c).mode = .u → (s.core c).fenceOps = [] →
      (s.core c).ctx.flights = [] →
      ∃ t, exec (.transferStart c true) s = .next t ∧ (t.core c).ce = [] ∧ (t.core c).taken = [{ o with phase := .started }] ∧
        SameBytes s t) ∧
    ((s.core c).ag = [o] → (s.core c).taken = [] → o.phase = .started → fillBob o.ins = some b → storeBob o.ins = none → b < 16 →
      failKind o.ins ≠ 1 → o.slot = n → ((s.core c).ctx.bobbin b).slot n = .reserved → (s.core c).pendingBefore o.id = [] → moveTile s o b true = (s1, o1) →
      ∃ t, exec (.fillSlotLanded c b n) s = .next t ∧ (t.core c).ag = [{ o1 with phase := .performed }] ∧
        ((t.core c).ctx.bobbin b).slot n = (if o1.fails = 0 then .landed else .failed) ∧ SameBytes s1 t ∧ t.net = s1.net) ∧
    ((s.core c).ag = [o] → o.phase = .performed → fillBob o.ins = some b → storeBob o.ins = none → isAtom o.ins = false →
      exec (.transferComplete c false) s = .next (endOp (s.modCore c fun x => { x with
        ag := [], taken := x.taken.filter fun p => p.id != o.id }) o)) ∧
    ((s.core c).ag = [o] → o.phase = .started → fillBob o.ins = none → storeBob o.ins = some b → isAtom o.ins = false →
      o.slotState (s.core c) ≠ .failed → mayWrite s o = true → moveTile s o b false = (s1, o1) →
      exec (.transferComplete c false) s = .next (finishOp (modOpBobbin s1 o1 b fun bo => bo.release o1.id) o1)) ∧
    (∀ (q : Claim) (qs : List Claim), b < 16 → ((s.core c).ctx.bobbin b).claims = q :: qs → q.done = true → q.keep = false →
      (∀ r ∈ qs, r.done = false) →
      let bo := (s.core c).ctx.bobbin b
      ∃ t, exec (.storeSlotPop c b) s = .next t ∧ ((t.core c).ctx.bobbin b).cnt = bo.cnt - 1 ∧
        ((t.core c).ctx.bobbin b).tail = (bo.tail + 1) % bo.cap ∧ ((t.core c).ctx.bobbin b).claims = qs ∧ SameBytes s t)

/-- R267, R271, R280, R281: an operation that runs plainly and ends. One that succeeded sends the increment of its flag, with
whose arrival it is outstanding no longer; one that failed, or names no flag, sends none, and leaves FLUSHY one operation fewer to
wait for at once where it counts. A failure counts and takes the next place of the failure log, whose record, where CFLOG gives it
a place, holds the cause, the kind, the context, the offset and the index. That an operation with a flag is outstanding until its
increment is applied is the model's reading (notes/assumptions/84.md). -/
def Obligations.OperationsEnd : Prop :=
  ∀ (s : State) (o : Op), Plain s o → o.afl = 0 →
    let x := s.core o.core
    let left := s.modCore o.core fun x => { x with outst := if countsOutstanding o.ins then x.outst - 1 else x.outst }
    (∀ f, o.fails = 0 → flagOf o.ins = some f → endOp s o = { s with net := s.net ++
      [⟨o.core, o.ctag, f, 1, dieOf o.core, (s.die (dieOf o.core)).vc, o.core, o.id, false, countsOutstanding o.ins, isExitn o.ins⟩] }) ∧
    (o.fails = 0 → flagOf o.ins = none → endOp s o = left) ∧ (o.fails ≠ 0 → endOp s o = left) ∧
    ∀ (cause ofs idx : Nat),
      let t := failItem s o cause ofs idx
      let n := bvField o.cflog 44 4
      let at' := bvField o.cflog 5 22 * 32 + 32 * (bvField x.ctx.cflog 48 16 % 2 ^ n)
      (t.core o.core).failn = x.failn + 1 ∧ bvField (t.core o.core).ctx.cflog 48 16 = (bvField x.ctx.cflog 48 16 + 1) % 2 ^ 16 ∧
      t.net = s.net ∧ (n = 0 → SameBytes s t) ∧
      (s.memOk = true → n ≠ 0 → at' + 32 ≤ (Space.die (dieOf o.core)).size →
        readNat t (.die (dieOf o.core)) at' 2 = cause % 2 ^ 16 ∧ readNat t (.die (dieOf o.core)) (at' + 2) 1 = failKind o.ins ∧
        readNat t (.die (dieOf o.core)) (at' + 4) 2 = o.ctag.toNat ∧ readNat t (.die (dieOf o.core)) (at' + 16) 8 = ofs % 2 ^ 64 ∧
        readNat t (.die (dieOf o.core)) (at' + 24) 4 = idx % 2 ^ 32)

/-- R258 to R261: an ATOM, at whatever level, joins ag's queue with its address and operands as read at issue, and counts as an
outstanding copy. Here no checkpoint is open. R260: the new value of each atomic on 32 or 64 bits, as arithmetic on its old value
and B (and C). R252, R260, R261: an ATOM on its own core's scratchpad is performed as one read and one write of its cell, and its
old value then lands in D and ag.y. Here the core runs outside a replay, its store and a checkpoint, and nothing issued before is
pending. -/
def Obligations.AtomicResults : Prop :=
  (∀ (s : State) (g : Guard) (e q u : Bool) (d a b c : Port) (sc : Scope) (lvl : Lvl) (off : BitVec 11), s.me.ckpt = none → s.cur < 256 →
    let queues := fun (i : Instr) (z : Word) => Acts s i → ∃ (t : State) (o : Op), exec i s = .next t ∧ t.me.ag = s.me.ag ++ [o] ∧
      o.ins = i ∧ o.id = s.nextId ∧ o.core = s.cur ∧ o.a = s.ctx.val a + off.signExtend 64 ∧ o.b = s.ctx.val b ∧ o.c = z ∧ o.phase = .queued ∧
      t.me.outst = s.me.outst + 1 ∧ t.ctx.s = s.ctx.s ∧ t.ctx.flights = s.ctx.flights ∧ SameBytes s t
    queues (.atomAdd g e d a b sc lvl q off) 0 ∧ queues (.atomInc g e d a b sc lvl q off) 0 ∧
    queues (.atomDec g e d a b sc lvl q off) 0 ∧ queues (.atomMin g e d a b sc lvl q u off) 0 ∧
    queues (.atomMax g e d a b sc lvl q u off) 0 ∧ queues (.atomAnd g e d a b sc lvl q off) 0 ∧
    queues (.atomOr g e d a b sc lvl q off) 0 ∧ queues (.atomXor g e d a b sc lvl q off) 0 ∧
    queues (.atomXchg g e d a b sc lvl q off) 0 ∧ queues (.atomCas g e d a b c sc lvl q off) (s.ctx.val c)) ∧
  (∀ (w : Nat) (old b c : BitVec w) (g : Guard) (e q : Bool) (d a x y : Port) (sc : Scope) (l : Lvl) (off : BitVec 11), (w = 32 ∨ w = 64) →
    let f := fun i => BitVec.ofNat w (atomNew i w old.toNat b.toNat c.toNat)
    f (.atomAdd g e d a x sc l q off) = old + b ∧
    f (.atomInc g e d a x sc l q off) = (if b = 0 ∨ old.ult b = true then old + 1 else old) ∧
    f (.atomDec g e d a x sc l q off) = (if b.ult old = true then old - 1 else old) ∧
    f (.atomMin g e d a x sc l q true off) = (if old.ule b then old else b) ∧
    f (.atomMax g e d a x sc l q true off) = (if old.ule b then b else old) ∧
    f (.atomMin g e d a x sc l q false off) = (if old.sle b then old else b) ∧
    f (.atomMax g e d a x sc l q false off) = (if old.sle b then b else old) ∧
    f (.atomAnd g e d a x sc l q off) = old &&& b ∧ f (.atomOr g e d a x sc l q off) = old ||| b ∧
    f (.atomXor g e d a x sc l q off) = old ^^^ b ∧ f (.atomXchg g e d a x sc l q off) = b ∧
    f (.atomCas g e d a x y sc l q off) = (if old = c then b else old)) ∧
  (∀ (s : State) (c : Nat) (o : Op) (g : Guard) (e : Bool) (d a b : Port) (sc : Scope) (off : BitVec 11), s.memOk = true → s.power = true → c < 256 →
    (s.core c).ag = [o] → o.ins = .atomAdd g e d a b sc .core true off → o.core = c → o.orig = none → (s.core c).mode = .u →
    (s.core c).ckpt = none → (s.part o.part).replay = none → (s.part o.part).d 170 2 = 0 → (s.core c).pendingBefore o.id = [] → o.mute = false →
    o.a.toNat + 8 ≤ 0x200000 →
    (o.phase = .queued → ∃ t o', exec (.atomPerform c) s = .next t ∧ (t.core c).ag = [o'] ∧ o'.phase = .performed ∧
      o'.val = BitVec.ofNat 64 (readNat s (.core c) o.a.toNat 8) ∧
      readNat t (.core c) o.a.toNat 8 = (readNat s (.core c) o.a.toNat 8 + o.b.toNat) % 2 ^ 64) ∧
    (∀ r : Fin 64, o.phase = .performed → d = .s r → e = false → o.ctag = (s.core c).ctag → (s.core c).away = [] → (s.core c).ctx.flights = [] →
      (s.core c).landed = [] →
      ∃ t, exec (.atomComplete c) s = .next t ∧ (t.core c).ag = [] ∧ (t.core c).ctx.scalar r.val = o.val ∧
        (t.core c).ctx.bypass 2 = o.val ∧ SameBytes s t))

/-- R256, R257: a FENCE is pending until every access of its core issued before it has been performed; then it completes. R254: a
die applies the oldest epoch marker once its clock has every other component the marker carries and nothing of that epoch is still
on its way: its component for the sender takes the marker's epoch, and the marker is gone. Here no increment, notice, host access
or atomic is on its way and no partition replays or keeps a replay store. -/
def Obligations.FencesAndEpochs : Prop :=
  ((∀ (s : State) (g : Guard) (sc : Scope), Acts s (.fence g sc) → s.cur < 256 → ∃ (t : State) (o : Op), exec (.fence g sc) s = .next t ∧
    t.me.fences = s.me.fences ++ [o] ∧ o.id = s.nextId ∧ o.ins = .fence g sc ∧ t.ctx.s = s.ctx.s ∧ t.ctx.flights = s.ctx.flights ∧ SameBytes s t) ∧
  (∀ (s : State) (c : Nat) (f : Op) (l : List Op), s.power = true → (s.core c).fences = f :: l → (s.core c).mode = .u → (∀ p ∈ l, p.id ≠ f.id) →
    (performedBefore s c f.id = true → exec (.fenceComplete c) s = .next (s.modCore c fun x => { x with fences := l })) ∧
    (performedBefore s c f.id = false → exec (.fenceComplete c) s = .next s))) ∧
  (∀ (s : State) (j : Nat) (m : Marker) (l : List Marker), s.power = true → j < 12 → m.src < 12 → (s.die j).markers = m :: l → s.net = [] →
    s.notices = [] → s.bar = [] → (∀ k < 256, (s.core k).ag = []) →
    clockAllows s m.clock m.src j = true → (∀ p < 8, (s.part p).replay = none ∧ (s.part p).d 170 2 = 0) →
    ∃ t, exec (.epochMarkerApply j 0) s = .next t ∧ (t.die j).markers = l ∧ vget (t.die j).vc m.src 0 = m.epoch ∧
      (∀ k, k ≠ m.src → vget (t.die j).vc k 0 = vget (s.die j).vc k 0) ∧ (∀ k, k ≠ j → t.die k = s.die k) ∧ t.mem = s.mem)

/-- R113, R265 to R267: a copy, list, hatch or overlay command joins ce's queue with everything it names read at issue, and counts
as an outstanding copy; TMV also reserves the slot of the bobbin it fills. Here no checkpoint is open. R288: CPYQ lands the
outstanding copies, the free entries of ce's queue, the failure count or the number of its core's copy engine after two cycles. -/
def Obligations.CopyInstructionsIssue : Prop :=
  (∀ (s : State) (g : Guard) (d a b c : Port) (ha hb : Fin 32) (r : Fin 16) (sc : Scope) (stop frc : Bool) (l : Lvl) (ovn : BitVec 8)
    (sl : BitVec 2), s.me.ckpt = none →
    let v := fun p => s.ctx.val p
    let h := fun (p : Port) => match p with | .h r => s.ctx.handle r.val | _ => (0 : HandleBits)
    let queues := fun (i : Instr) (x y z f : Word) (p q : HandleBits) => Acts s i → exec i s = .next (acted s i fun t =>
      t.modMe fun m => { m with outst := m.outst + 1, ce := m.ce ++ [t.mkOp i x y z f p q 0] })
    queues (.cpy g d a b c sc) 0 0 (v c) 0 (h a) (h b) ∧ queues (.cpyl g d a b sc stop l) (v a) (v b) 0 0 0 0 ∧
    queues (.hqpush g d a b) (v a) (v b) 0 0 0 0 ∧ queues (.hqpop g d a b) (v a) (v b) 0 0 0 0 ∧
    queues (.ovl g d a b frc ovn sl) (v a) (v b) 0 (BitVec.ofNat 64 (imageOf s s.cur)) 0 0 ∧
    (s.cur < 256 → Acts s (.tmv g d (.h ha) (.h hb)) → ∃ (t : State) (o : Op), exec (.tmv g d (.h ha) (.h hb)) s = .next t ∧
      t.me.ce = s.me.ce ++ [o] ∧ o.ins = .tmv g d (.h ha) (.h hb) ∧ o.ha = s.ctx.handle ha.val ∧ o.hb = s.ctx.handle hb.val ∧
      t.me.outst = s.me.outst + 1 ∧ t.ctx.bob = s.ctx.bob ∧ SameBytes s t) ∧
    (s.cur < 256 → Acts s (.tmv g d (.h ha) (.b r)) → ∃ (t : State) (o : Op), exec (.tmv g d (.h ha) (.b r)) s = .next t ∧
      t.me.ce = s.me.ce ++ [o] ∧ o.ins = .tmv g d (.h ha) (.b r) ∧ o.ha = s.ctx.handle ha.val ∧ o.slot = (s.ctx.bobbin r.val).head ∧
      t.me.outst = s.me.outst + 1 ∧ t.ctx.bobbin r.val = (s.ctx.bobbin r.val).reserve .reserved ∧ SameBytes s t)) ∧
  (∀ (s : State) (g : Guard) (e : Bool) (d : Port),
    let gives := fun (sl : BitVec 2) (v : Nat) => Acts s (.cpyq g e d sl) →
      exec (.cpyq g e d sl) s = .next (acted s (.cpyq g e d sl) fun t => t.result .ce 6 2 e d (BitVec.ofNat 64 v) 0)
    gives 0 s.me.outst ∧ gives 1 (16 - s.me.ce.length) ∧ gives 2 s.me.failn ∧ gives 3 (engineOf s.cur))

/-- COPY_COMMAND_TAKE, ENGINE_WAIT_END, COPY_ITEM_COMPLETE, HQ_ENTRY_MOVE: the engine takes the oldest command, which runs unless
its hatch queue is full; the wait of an HQPUSH ends once its queue has room; a list copies one item after another, a failed item
is recorded, and with .stop the rest is recorded as not run; a list whose items are done ends once its increments have been
applied; an HQPUSH's line goes to its queue's tail, and the command ends once the far flag has risen. Nothing of this is written
before everything the core issued earlier is performed. An item of one row between scratchpads writes the bytes of its source at
its destination, and no others. One item after another, an end of the list after its increments, the clock of a hatch line and its
place are the model's own (notes/assumptions/79.md, 84.md, 89.md, 97.md). -/
def Obligations.CopyEngineEvents : Prop :=
  ∀ (s s1 : State) (c : Nat) (o : Op) (g : Guard) (d a b : Port) (sc : Scope) (stop : Bool) (lvl : Lvl),
    s.power = true → o.core = c → Plain s o →
    let x := s.core c
    let h := s.hatchOf o.a.toNat
    let gone := s.modCore c fun x => { x with taken := [] }
    (x.ce = [o] → x.taken = [] → x.mode = .u → x.fenceOps = [] → x.ctx.flights = [] → o.ins = .hqpush g d a b →
      ∃ t, exec (.copyCommandTake c) s = .next t ∧ (t.core c).ce = [] ∧
        (t.core c).taken = [{ o with phase := if h.cap ≤ h.cnt then .queued else .started }] ∧ SameBytes s t) ∧
    (x.ce = [o] → x.taken = [] → x.mode = .u → x.fenceOps = [] → x.ctx.flights = [] → o.ins = .cpyl g d a b sc stop lvl →
      ∃ t, exec (.copyCommandTake c) s = .next t ∧ (t.core c).ce = [] ∧
        (t.core c).taken = [{ o with phase := if o.b = 0 then .performed else .started }] ∧ SameBytes s t) ∧
    (x.taken = [o] → o.phase = .queued → o.ins = .hqpush g d a b →
      (h.cnt < h.cap → ∃ t, exec (.engineWaitEnd c) s = .next t ∧ (t.core c).taken = [{ o with phase := .started }] ∧ SameBytes s t) ∧
      (h.cap ≤ h.cnt → exec (.engineWaitEnd c) s = .next s)) ∧
    (x.taken = [o] → mayWrite s o = true → o.phase = .started → o.ins = .cpyl g d a b sc stop lvl → listItem s o sc o.idx = ⟨s1, none⟩ →
      ∃ t, exec (.copyItemComplete c) s = .next t ∧ SameBytes s1 t ∧ t.net = s1.net ∧
        (t.core c).taken = [{ o with err := none, idx := o.idx + 1, phase := if o.idx + 1 = o.b.toNat then .performed else .started }]) ∧
    (∀ k ofs, x.taken = [o] → mayWrite s o = true → o.phase = .started → o.ins = .cpyl g d a b sc true lvl → o.idx < o.b.toNat →
      listItem s o sc o.idx = ⟨s1, some (k, ofs)⟩ → (s1.core c).failn = x.failn →
      ∃ t, exec (.copyItemComplete c) s = .next t ∧ (t.core c).failn = x.failn + (o.b.toNat - o.idx) ∧
        (t.core c).taken = [{ o with err := none, idx := o.b.toNat, fails := 1, phase := .performed }]) ∧
    (x.taken = [o] → x.ag = [] → incrsDone s o = true → o.phase = .performed → o.ins = .cpyl g d a b sc stop lvl →
      exec (.copyItemComplete c) s = .next (endOp gone o)) ∧
    (∀ place, x.taken = [o] → o.err = none → o.phase = .started → o.ins = .hqpush g d a b → h.cnt < h.cap → o.a.toNat < 1024 → mayWrite s o = true →
      clockLets s (dieOf c) (.die (o.a.toNat / 256)) 0 = true → hatchPlace s o.a.toNat (h.line h.tail) = some place →
      let die := o.a.toNat / 256
      let s2 := (writeBytes (putOp s { o with phase := .performed, val := BitVec.ofNat 64 place }) (.die die) place (readBytes s (.core c) o.b.toNat 64)).setHatch o.a.toNat h.push
      exec (.hqEntryMove c) s = .next (sendOp s2 o die (bvField h.bnd 40 8) (bvField h.bnd 48 16) (bvField h.bnd 35 5) 1 false) ∧
      (s.memOk = true → readBytes s2 (.die die) place 64 = readBytes s (.core c) o.b.toNat 64) ∧ h.push.cfg = h.cfg) ∧
    (x.taken = [o] → o.phase = .performed → o.ins = .hqpush g d a b → incrsDone s o = true →
      exec (.hqEntryMove c) s = .next (finishOp s o)) ∧
    (∀ (e : ListEntry) (sp dp : Space) (p q : Nat), s.memOk = true → o.err = none → listEntry s o o.idx = .ok e → e.ok = true → e.rf = false →
      e.rows = 1 → e.ss.lvl < 3 → e.ds.lvl < 3 → e.src + e.len ≤ 2 ^ 64 → e.dst + e.len ≤ 2 ^ 64 → spaceExists sp → spaceExists dp →
      (∀ i < e.len, placeOf s o e.ss false (e.src + i) = .at sp (p + i) ∧ placeOf s o e.ds true (e.dst + i) = .at dp (q + i)) →
      p + e.len ≤ sp.size → q + e.len ≤ dp.size → (sp ≠ dp ∨ p + e.len ≤ q ∨ q + e.len ≤ p) →
      ∃ s2, listItem s o sc o.idx = ⟨s2, none⟩ ∧ readBytes s2 dp q e.len = readBytes s sp p e.len ∧
        ∀ sp' i, spaceExists sp' → i < sp'.size → ¬(sp' = dp ∧ q ≤ i ∧ i < q + e.len) → readByte s2 sp' i = readByte s sp' i)

/-- R268 to R272, R286: an increment that reaches the live context of its tag adds to its flag, which stops at 1,048,575 and then
notes it in KSAT, and where it is the completion of an operation that counts, the operation is outstanding no longer; one for
another tag joins the pending increments, adding to an entry of the same tag and flag. It may arrive once every access its sender
issued before is performed and the clock lets it. A POST sends its amount once everything before it has been performed. -/
def Obligations.IncrementEvents : Prop :=
  (∀ (s : State) (i : Incr) (f : Fin 32), s.power = true → s.net = [i] → i.core < 256 → i.post = false → i.flag = f.val → incrMay s i = true →
    let x := s.core i.core
    (x.liveTag i.ctag = true → ∃ t, exec (.incrementArrival 0) s = .next t ∧ t.net = [] ∧
      (t.core i.core).ctx.flagVal f.val = min 1048575 (x.ctx.flagVal f.val + i.amt) ∧
      ((t.core i.core).ctx.ksat.getLsbD f.val = (x.ctx.ksat.getLsbD f.val || decide (1048575 < x.ctx.flagVal f.val + i.amt))) ∧
      (∀ k, k ≠ f.val → (t.core i.core).ctx.flagVal k = x.ctx.flagVal k) ∧ (t.core i.core).pib = x.pib ∧ SameBytes s t ∧
      (i.src < 256 → (s.core i.src).ctag = i.ctag → (t.core i.src).outst = (s.core i.src).outst - (if i.counts then 1 else 0))) ∧
    (x.liveTag i.ctag = false → x.pib = [] → ∃ t, exec (.incrementArrival 0) s = .next t ∧ t.net = [] ∧
      (t.core i.core).pib = [⟨i.ctag, i.flag, i.amt⟩] ∧ (t.core i.core).ctx = x.ctx ∧ SameBytes s t) ∧
    (∀ n, x.liveTag i.ctag = false → x.pib = [⟨i.ctag, i.flag, n⟩] → ∃ t, exec (.incrementArrival 0) s = .next t ∧ t.net = [] ∧
      (t.core i.core).pib = [⟨i.ctag, i.flag, min 1048575 (n + i.amt)⟩] ∧ (t.core i.core).ctx = x.ctx ∧ SameBytes s t)) ∧
  (∀ (s : State) (c : Nat) (o : Op) (g : Guard) (r : Fin 32) (a b cc : Port) (sc : Scope), s.power = true → o.core = c → Plain s o →
    (s.core c).sy = [o] → o.phase = .queued → o.ins = .post g (.k r) a b cc sc false → (s.core c).mode = .u → (s.core c).fences = [] →
    performedBefore s c o.id = true →
    (o.a ≠ 0 → ∃ t, exec (.postSend c) s = .next t ∧ t.net = s.net ++
        [⟨c, o.ctag, r.val, o.a.toNat, dieOf c, (s.die (dieOf c)).vc, c, o.id, true, false, false⟩] ∧
      (t.core c).sy = [{ o with phase := .started }] ∧ SameBytes s t) ∧
    (o.a = 0 → ∃ t, exec (.postSend c) s = .next t ∧ t.net = s.net ∧ (t.core c).sy = [] ∧ (t.core c).outst = (s.core c).outst - 1 ∧
      SameBytes s t))

/-! ## Token rows, cellars, launches -/

/-- R113, R294, R311 to R348, R366: the instructions of tm join its queue with everything they name read at issue. Cellar and
launch requests count as outstanding copies, row instructions do not (R267). SHSEND takes a permit of its lane and SHRECV moves a
micro-batch from outstanding to pending. Here no checkpoint is open. -/
def Obligations.TmInstructionsQueue : Prop :=
  ∀ (s : State) (g : Guard) (e sth ronly cel cnt : Bool) (d a b c : Port) (ha hb : Fin 32) (sh : BitVec 5) (rsel : RowSel)
    (rbase : BitVec 9) (rdef : BitVec 3) (blk : BitVec 10) (w : BitVec 16) (sl : BitVec 2), s.me.ckpt = none →
    let v := fun p => s.ctx.val p
    let h := fun (r : Nat) => s.ctx.handle r
    let queues := fun (n : Nat) (i : Instr) (x y z : Word) (p q u : HandleBits) => Acts s i → exec i s = .next (acted s i fun t =>
      t.modMe fun m => { m with outst := m.outst + n, tm := m.tm ++ [t.mkOp i x y z 0 p q u] })
    queues 0 (.rcmp g d (.h ha) (.h hb) c sh sth rsel rbase) 0 0 (v c) (h ha.val) (h hb.val) (h sh.toNat) ∧
    queues 0 (.rrst g d (.h ha) (.h hb) c rbase) 0 0 (v c) (h ha.val) (h hb.val) 0 ∧
    queues 0 (.rpred g d a b c ronly rdef blk) (v a) (v b) (v c) 0 0 0 ∧ queues 0 (.rset g d a b c w) (v a) (v b) (v c) 0 0 0 ∧
    queues 0 (.rsetCfg g a) (v a) 0 0 0 0 0 ∧ queues 0 (.rcnt g e d a b sl) (v a) (v b) 0 0 0 0 ∧
    queues 1 (.kvapp g d (.h ha) b cel) 0 (v b) 0 (h ha.val) 0 0 ∧ queues 1 (.kvappGap g d a b c cel) (v a) (v b) (v c) 0 0 0 ∧
    queues 1 (.kvcomAcc g d a b cel) (v a) (v b) 0 0 0 0 ∧ queues 1 (.kvcomSet g d a b cel) (v a) (v b) 0 0 0 0 ∧
    queues 1 (.kvtent g e d a cel) (v a) 0 0 0 0 0 ∧ queues 1 (.kvroll g d a cel) (v a) 0 0 0 0 0 ∧
    queues 1 (.kvrscl g d a b cel) (v a) (v b) 0 0 0 0 ∧ queues 1 (.kvfill g d a b c cel) (v a) (v b) (v c) 0 0 0 ∧
    queues 1 (.attn g d (.h ha) b c cel) 0 (v b) (v c) (h ha.val) 0 0 ∧ queues 1 (.exitn g d a b) (v a) (v b) 0 0 0 0 ∧
    queues 1 (.opbpostArm g d a b cnt) (v a) (v b) 0 0 0 0 ∧ queues 1 (.opbpostDec g d a b) (v a) (v b) 0 0 0 0 ∧
    (s.cur < 256 → Acts s (.shsend g d (.h ha) b cel) → ∃ (t : State) (o : Op), exec (.shsend g d (.h ha) b cel) s = .next t ∧
      t.me.tm = s.me.tm ++ [o] ∧ o.ins = .shsend g d (.h ha) b cel ∧ o.ha = h ha.val ∧ o.b = v b ∧ t.me.outst = s.me.outst + 1 ∧
      (t.ctx.lane cel).held = (s.ctx.lane cel).held - 1 ∧ (t.ctx.lane cel).out = (s.ctx.lane cel).out + 1 ∧
      t.ctx.lane (!cel) = s.ctx.lane (!cel) ∧ SameBytes s t) ∧
    (s.cur < 256 → Acts s (.shrecv g d a cel) → ∃ (t : State) (o : Op), exec (.shrecv g d a cel) s = .next t ∧
      t.me.tm = s.me.tm ++ [o] ∧ o.ins = .shrecv g d a cel ∧ o.a = v a ∧ t.me.outst = s.me.outst + 1 ∧
      (t.ctx.lane cel).out = (s.ctx.lane cel).out - 1 ∧ (t.ctx.lane cel).pend = (s.ctx.lane cel).pend + 1 ∧
      t.ctx.lane (!cel) = s.ctx.lane (!cel) ∧ SameBytes s t)

/-- R294, R307: tm starts the row instruction at the head of its queue once none runs, and nothing it must follow is left;
RSET.cfg then sets PCFG. R307: RSET with CFG = 0 writes its 16-bit value to `count` words from the first, in the core's own
scratchpad, and leaves every other byte as it was. Here no checkpoint is open and the words lie in the scratchpad. R308: RCNT.mask
gives a word whose bits from L on are 1 within the last block of 64: all ones for L = 0, none where L is a multiple of 64. R298,
R302, R304, R308: RCNT counts words by action, a recurse word with count 0 as continue, and exit words that are first-pass. RPRED
rewrites every word by its action, count and score, and counts afterwards. RCMP packs the selected rows in order, fills the last
granule with zero rows and dead entries, and notes the rows in the reel; RRST puts the rows of live entries back. Here no
checkpoint is open, the arrays and rows lie apart in the core's own scratchpad, RCMP stashes nothing, and RRST's entries are
distinct. -/
def Obligations.RowInstructionEffects : Prop :=
  (∀ (s : State) (c : Nat) (o : Op) (l : List Op), s.power = true → c < 256 → (s.core c).mode = .u → (s.core c).fenceOps = [] →
    (s.core c).ctx.flights = [] → (s.core c).rowRun = none → (s.core c).tm = o :: l →
    (∀ g a, o.ins = .rsetCfg g a → ∃ t, exec (.rowInstructionStart c) s = .next t ∧ (t.core c).tm = l ∧
      (t.core c).rowRun = some { o with phase := .started } ∧ (t.core c).ctx.pcfg = o.a ∧ SameBytes s t) ∧
    (∀ g d a b k v, o.ins = .rset g d a b k v → ∃ t, exec (.rowInstructionStart c) s = .next t ∧ (t.core c).tm = l ∧
      (t.core c).rowRun = some { o with phase := .started } ∧ (t.core c).ctx = (s.core c).ctx ∧ SameBytes s t)) ∧
  (∀ (s : State) (o : Op) (g : Guard) (d a b k : Port) (v : BitVec 16), s.memOk = true → o.core < 256 → (s.core o.core).ckpt = none → o.orig = none →
    o.ins = .rset g d a b k v → o.a.toNat + 2 * (o.b.toNat + o.c.toNat) ≤ 0x200000 →
    let t := (rowRunEffect s o).1
    (∀ j < o.c.toNat, readNat t (.core o.core) (o.a.toNat + 2 * (o.b.toNat + j)) 2 = v.toNat) ∧
    ∀ sp x, spaceExists sp → x < sp.size →
      ¬(sp = .core o.core ∧ o.a.toNat + 2 * o.b.toNat ≤ x ∧ x < o.a.toNat + 2 * (o.b.toNat + o.c.toNat)) → readByte t sp x = readByte s sp x) ∧
  (∀ (s : State) (o : Op),
    let l := o.a.toNat % 2 ^ 16
    ∀ k < 64, (rcntWord s o 2).getLsbD k = (decide (l = 0) || (decide (l % 64 ≠ 0) && decide (l % 64 ≤ k)))) ∧
  ((∀ (s : State) (o : Op) (g : Guard) (e : Bool) (d a b : Port) (sl : BitVec 2), o.ins = .rcnt g e d a b sl → o.b.toNat ≤ 4096 →
    let word := fun (r : Nat) => readNat s (.core o.core) (o.a.toNat + 2 * r) 2
    let act := fun (w : Nat) => if w / 2 ^ 14 % 4 = 3 ∧ w / 2 ^ 11 % 8 = 0 then 0 else w / 2 ^ 14 % 4
    let count := fun (p : Nat → Bool) => ((List.range o.b.toNat).filter fun r => p (word r)).length
    (rowRunEffect s o).1 = s ∧ (sl = 0 → ∀ k < 4, ((rowRunEffect s o).2.extractLsb' (16 * k) 16).toNat = count fun w => act w == k) ∧
      (sl = 1 → (rowRunEffect s o).2.toNat = count fun w => decide (w / 2 ^ 14 % 4 = 2 ∧ w / 2 ^ 10 % 2 = 1))) ∧
  (∀ (cfg : Word) (rec' : Bool) (rdef rc : BitVec 3) (blk b : BitVec 10) (act : BitVec 2) (fp : BitVec 1) (sc : Nat),
    let p := predWord cfg rec' rdef.toNat blk.toNat (act ++ rc ++ fp ++ b : BitVec 16).toNat sc
    let put := fun (a : BitVec 2) (r : BitVec 3) (f : BitVec 1) => p = some (a ++ r ++ f ++ blk : BitVec 16).toNat
    let ge := fun (lo : Nat) => (fcmpHolds .ge (unpack .f32 sc) (unpack .f16 (cfg.extractLsb' lo 16).toNat)).1
    let lt := fun (lo : Nat) => (fcmpHolds .lt (unpack .f32 sc) (unpack .f16 (cfg.extractLsb' lo 16).toNat)).1
    (rec' = true → ¬(act = 3 ∧ rc ≠ 0) → p = none) ∧ (act = 2 → p = none) ∧ (rec' = false → act = 1 → put 0 rc fp) ∧
    (act = 3 → 2 ≤ rc.toNat → put 3 (rc - 1) fp) ∧ (act = 3 → rc = 1 → put 0 0 fp) ∧
    (rec' = false → act = 0 ∨ act = 3 ∧ rc = 0 →
      ((ge 48 || lt 0) = true → put 2 0 1) ∧ ((ge 48 || lt 0) = false → ge 32 = true → put 1 rc fp) ∧
      ((ge 48 || lt 0) = false → ge 32 = false → lt 16 = true → rdef ≠ 0 → put 3 rdef fp) ∧
      ((ge 48 || lt 0) = false → ge 32 = false → (lt 16 = false ∨ rdef = 0) → put 0 rc fp))) ∧
  (∀ (s : State) (o : Op) (g : Guard) (d a b k : Port) (rec' : Bool) (rdef : BitVec 3) (blk : BitVec 10), s.memOk = true → o.core < 256 →
    (s.core o.core).ckpt = none → o.orig = none → o.ins = .rpred g d a b k rec' rdef blk → o.c.toNat ≤ 4096 →
    o.b.toNat + 2 * o.c.toNat ≤ 0x200000 → o.a.toNat + 4 * o.c.toNat ≤ 0x200000 →
    o.b.toNat + 2 * o.c.toNat ≤ o.a.toNat ∨ o.a.toNat + 4 * o.c.toNat ≤ o.b.toNat →
    let t := (rowRunEffect s o).1
    let word := fun (s : State) (r : Nat) => readNat s (.core o.core) (o.b.toNat + 2 * r) 2
    let act := fun (w : Nat) => if w / 2 ^ 14 % 4 = 3 ∧ w / 2 ^ 11 % 8 = 0 then 0 else w / 2 ^ 14 % 4
    (∀ r < o.c.toNat, word t r = (predWord (s.core o.core).ctx.pcfg rec' rdef.toNat blk.toNat (word s r)
      (readNat s (.core o.core) (o.a.toNat + 4 * r) 4)).getD (word s r)) ∧
    (∀ j < 4, ((rowRunEffect s o).2.extractLsb' (16 * j) 16).toNat = ((List.range o.c.toNat).filter fun r => act (word t r) == j).length) ∧
    ∀ sp i, spaceExists sp → i < sp.size → ¬(sp = .core o.core ∧ o.b.toNat ≤ i ∧ i < o.b.toNat + 2 * o.c.toNat) → readByte t sp i = readByte s sp i) ∧
  (∀ (s : State) (o : Op) (g : Guard) (d a b k : Port) (sh : BitVec 5) (sel : RowSel) (rb : BitVec 9), s.memOk = true → o.core < 256 →
    (s.core o.core).ckpt = none → o.orig = none → o.runs (s.core o.core) = true →
    let t := (rowRunEffect s o).1
    let v := (rowRunEffect s o).2
    let na := Handle.size o.ha 1
    let nb := Handle.size o.hb 1
    let size := rowBytes o.ha
    let ra := fun (r : Nat) => Handle.nibbleOf o.ha 0 r 0 0 / 2
    let rb' := fun (r : Nat) => Handle.nibbleOf o.hb 0 r 0 0 / 2
    let apart := fun (i j : Nat) => i + size ≤ j ∨ j + size ≤ i
    let row := fun (s : State) (a : Nat) => readBytes s (.core o.core) a size
    let reel := fun (s : State) (i : Nat) => vget (s.core o.core).ctx.reel i 0
    let word := fun (r : Nat) => readNat s (.core o.core) (o.c.toNat + 2 * r) 2
    let act := fun (w : Nat) => if w / 2 ^ 14 % 4 = 3 ∧ w / 2 ^ 11 % 8 = 0 then 0 else w / 2 ^ 14 % 4
    Handle.lvl o.ha = 0 → Handle.lvl o.hb = 0 → rowBytes o.hb = size → na ≤ 4096 → nb ≤ 4096 → (∀ r < na, ra r + size ≤ 0x200000) →
    (∀ r < nb, rb' r + size ≤ 0x200000) → (∀ i < nb, (∀ j < i, apart (rb' i) (rb' j)) ∧ ∀ r < na, apart (rb' i) (ra r)) →
    (o.ins = .rcmp g d a b k sh false sel rb → 8 * ((na + 7) / 8) ≤ nb → 8 * rb.toNat + 8 * ((na + 7) / 8) ≤ 4096 →
      let sels := (List.range na).filter fun r => match sel with
        | .live => act (word r) == 0 || act (word r) == 3 | .recurse => act (word r) == 3 | .cont => act (word r) == 0
      let n := sels.length
      (∀ p < n, row t (rb' p) = row s (ra (sels.getD p 0)) ∧ reel t (8 * rb.toNat + p) = BitVec.ofNat 16 (sels.getD p 0)) ∧
      (∀ p, n ≤ p → p < 8 * ((n + 7) / 8) → row t (rb' p) = List.replicate size 0#8 ∧ reel t (8 * rb.toNat + p) = 0x8000) ∧
      (∀ p, 8 * ((n + 7) / 8) ≤ p → p < nb → row t (rb' p) = row s (rb' p)) ∧
      (∀ i, i < 8 * rb.toNat ∨ 8 * rb.toNat + 8 * ((n + 7) / 8) ≤ i → reel t i = reel s i) ∧
      v = BitVec.ofNat 64 ((n + 7) / 8 * 2 ^ 32 + (n + 63) / 64 * 2 ^ 16 + n)) ∧
    (o.ins = .rrst g d a b k rb → (o.c.extractLsb' 0 16).toNat ≤ na → (o.c.extractLsb' 0 16).toNat ≤ 4096 - 8 * rb.toNat →
      let n := (o.c.extractLsb' 0 16).toNat
      let entry := fun (p : Nat) => reel s (8 * rb.toNat + p)
      let dead := fun (p : Nat) => (entry p).getLsbD 15 || decide (nb ≤ ((entry p).extractLsb' 0 12).toNat)
      (∀ p < n, ∀ q < p, dead p = false → dead q = false → (entry p).extractLsb' 0 12 ≠ (entry q).extractLsb' 0 12) →
      (∀ p < n, dead p = false → row t (rb' ((entry p).extractLsb' 0 12).toNat) = row s (ra p)) ∧
      (∀ i < nb, (∀ p < n, dead p = false → ((entry p).extractLsb' 0 12).toNat ≠ i) → row t (rb' i) = row s (rb' i)) ∧
      v = BitVec.ofNat 64 (((List.range n).filter fun p => dead p).length * 2 ^ 16 + ((List.range n).filter fun p => !dead p).length))))

/-- TM_REQUEST_SEND: tm sends the request at its head. A cellar request joins the cellar unit of its die and lane with the bytes
it names; a SHSEND's micro-batch joins the other end's buffer and its flag rises; an SHRECV waits for its micro-batch; an exit
notice joins the notice lane with its 64 bytes; and an OPBPOST joins the launch intake, to arm or to count down. KVAPP carries its
descriptor and rows, KVAPP.gap its descriptor and gap words, KVFILL its 24 bytes, ATTN its entries and then the queries as pairs
of 260 bytes. -/
def Obligations.RequestsAreSent : Prop :=
  ∀ (s : State) (c : Nat) (o : Op) (l : List Op) (g : Guard) (d a b k : Port) (f : Fin 32) (e hi cnt : Bool),
    s.power = true → o.core = c → Plain s o → (s.core c).tm = o :: l → (s.core c).mode = .u → (s.core c).fenceOps = [] →
    (s.core c).ctx.flights = [] → o.data = [] →
    let cel := 2 * dieOf c + (if hi then 1 else 0)
    let sent := { o with phase := Phase.started }
    let own := fun (a n : Nat) => readBytes s (.core c) a n
    let joins := fun (data : List Byte) => acceptedFrom s cel (dieOf c) < 64 →
      ∃ t, exec (.tmRequestSend c) s = .next t ∧ (t.core c).tm = l ∧ (t.cellar cel).reqs = (s.cellar cel).reqs ++ [{ sent with data := data }] ∧
        (∀ k, k ≠ cel → t.cellar k = s.cellar k) ∧ (t.core c).outst = (s.core c).outst ∧ SameBytes s t ∧ t.net = s.net
    (o.ins = .kvcomAcc g d a b hi ∨ o.ins = .kvcomSet g d a b hi ∨ o.ins = .kvtent g e d a hi ∨ o.ins = .kvroll g d a hi ∨
      o.ins = .kvrscl g d a b hi → joins []) ∧
    (o.ins = .kvapp g d a b hi → joins (own o.b.toNat 32 ++ (List.range (Handle.size o.ha 1)).flatMap fun r => readBytes s
      (levelSpace c (Handle.lvl o.ha) 0xFF) (Handle.nibbleOf o.ha 0 r 0 0 / 2) (Handle.size o.ha 0 * (Handle.width o.ha / 8)))) ∧
    (o.ins = .kvappGap g d a b k hi → joins (own o.b.toNat 32 ++ own o.a.toNat (8 * o.c.toNat))) ∧
    (o.ins = .kvfill g d a b k hi → joins (own o.a.toNat 24)) ∧
    (o.ins = .attn g d a b k hi → (queryData s o).2 = 0 → joins (queryData s o).1) ∧
    (∃ l, (queryData s o).1 = own o.b.toNat (32 * Handle.size o.ha 1) ++ l ∧ l.length = 260 * Handle.size o.ha 1) ∧
    (o.ins = .shrecv g d a hi → ∃ t, exec (.tmRequestSend c) s = .next t ∧ (t.core c).tm = l ∧
      (t.core c).recv = (s.core c).recv ++ [sent] ∧ SameBytes s t ∧ t.net = s.net) ∧
    (∀ ha : Port, o.ins = .shsend g (.k f) ha b hi → (queryData s o).2 = 0 → ∃ t, exec (.tmRequestSend c) s = .next t ∧ (t.core c).tm = l ∧
      (t.cellar cel).batches = (s.cellar cel).batches ++ [⟨{ sent with data := (queryData s o).1 }, hi, [], false⟩] ∧
      t.net = s.net ++ [⟨c, o.ctag, f.val, 1, dieOf c, (s.die (dieOf c)).vc, c, o.id, false, false, false⟩] ∧ SameBytes s t) ∧
    (o.ins = .exitn g d a b → unacked s c o.b.toNat < 4 → ∃ t k, exec (.tmRequestSend c) s = .next t ∧ (t.core c).tm = l ∧
      t.notices = s.notices ++ [k] ∧ k.bind = o.b.toNat ∧ k.phase = .queued ∧ k.bytes = readBytes s (.core c) o.a.toNat 64 ∧
      SameBytes s t ∧ t.net = s.net) ∧
    (o.ins = .opbpostArm g d a b cnt → o.part < 8 → (s.part o.part).intake.length < 256 → ∃ t k, exec (.tmRequestSend c) s = .next t ∧
      (t.core c).tm = l ∧ (t.part o.part).intake = (s.part o.part).intake ++ [k] ∧ k.handle = o.a.toNat ∧ k.dec = false ∧
      k.cnt = (if cnt then some (bvField o.b 0 16) else none) ∧ SameBytes s t) ∧
    (o.ins = .opbpostDec g d a b → o.part < 8 → (s.part o.part).intake.length < 256 → ∃ t k, exec (.tmRequestSend c) s = .next t ∧
      (t.core c).tm = l ∧ (t.part o.part).intake = (s.part o.part).intake ++ [k] ∧ k.handle = o.a.toNat ∧ k.dec = true ∧
      k.cnt = some o.b.toNat ∧ SameBytes s t)

/-- ROW_INSTRUCTION_COMPLETE, CELLAR_REQUEST_PERFORM, CELLAR_REQUEST_COMPLETE: a row instruction's effect happens and it ends, tm
free again: in U mode its result lands and its flag's increment is sent, while the core is frozen both enter the in-flight list; a
cellar request whose slot nothing before it touches, and which the clocks let through, is performed whole, in one event
(notes/assumptions/57.md, 84.md), and a performed one ends. Of R315's lengths, KVCOM moves the committed one on or sets both, and
KVROLL takes the tentative one back (R322); every request keeps CL ≤ TL ≤ 1,048,576 (R315). A gap's record address, headroom and
GAP bit are in its page, and TL is one more; the bytes of an ATTN's one row are at C. Of a cellar with several requests only the
rule of the lengths speaks. PERMIT_GRANT, MICRO_BATCH_PERFORM, MICRO_BATCH_DELIVER, NOTICE_APPEND, EXITN_ACK,
NOTICE_TARGET_UNREACHABLE (R338 to R348): a granted permit is held; a micro-batch is done once its rows are and its SHSEND's flag
has risen; a delivered one frees its buffer and ends its SHRECV; an exit notice is written at the tail of its hatch queue,
acknowledged, or, to another module, failed with 0x147; one that its queue can take in does not fail. Notices of other modules are
the model's (notes/assumptions/59.md). -/
def Obligations.CellarAndShuttleEvents : Prop :=
  (∀ (s s1 : State) (c n : Nat) (o o1 : Op), s.power = true → o.core = c → Plain s o → n < 8 →
    ((s.core c).rowRun = some o → exec (.rowInstructionComplete c) s =
      .next (rowEnd ((rowRunEffect s o).1.modCore c fun x => { x with rowRun := none }) { o with val := (rowRunEffect s o).2 })) ∧
    ((s.core c).mode = .u → writesTmY o.ins = false → rowEnd s o = endOp s o) ∧
    ((s.core c).mode = .u → (s.core c).saved = .no → writesTmY o.ins = true →
      rowEnd s o = endOp (landLate s c ⟨o.id, 0, .tm, 6, 0#8, destWrs .tm (tmEph o.ins) (tmDest o.ins) o.val⟩ false) o) ∧
    (∀ k, (s.core c).mode = .s → (s.core c).saved = .no → o.fails = 0 → flagOf o.ins = some k → writesTmY o.ins = true →
      rowEnd s o = dropOutstanding (landLate s c
        ⟨o.id, 0, .tm, 6, 0#8, destWrs .tm (tmEph o.ins) (tmDest o.ins) o.val ++ [.flag k]⟩ true) o) ∧
    ((s.cellar n).reqs = [o] → (s.cellar n).batches = [] → o.phase = .started → cellarLets s n o = true →
      performRequest s n o = (s1, o1) → o1.id = o.id → (s1.cellar n).reqs = [o] →
      ∃ t, exec (.cellarRequestPerform n 0) s = .next t ∧ (t.cellar n).reqs = [o1] ∧ (∀ k, k ≠ n → t.cellar k = s1.cellar k) ∧
        t.cores = s1.cores ∧ SameBytes s1 t) ∧
    ((s.cellar n).reqs = [o] → o.phase = .performed → writesTmY o.ins = false → exec (.cellarRequestComplete n 0) s =
      .next (endOp (s.modCellar n fun k => { k with reqs := [] }) o)) ∧
    (∀ (g : Guard) (d a b : Port) (hi : Bool), (s.cellar n).reqs = [o] → (s.cellar n).batches = [] → o.phase = .started →
      cellarLets s n o = true → bvField o.a 12 52 = 0 → slotOwned s o.part n (bvField o.a 0 12) = true →
      let slot := bvField o.a 0 12
      let lens := fun (x y : Nat) => ∃ t, exec (.cellarRequestPerform n 0) s = .next t ∧ lensOf t n slot = (x, y) ∧ t.cores = s.cores ∧ SameBytes s t
      let cl := (lensOf s n slot).1
      let tl := (lensOf s n slot).2
      let sorted := mwf (0, 0) 0 (s.cellar n).lens = true
      (o.ins = .kvcomAcc g d a b hi → cl + o.b.toNat ≤ tl → (tl ≠ 0 ∨ sorted) → lens (cl + o.b.toNat) tl) ∧
      (o.ins = .kvcomSet g d a b hi → o.b.toNat ≤ 1048576 → (o.b ≠ 0 ∨ sorted) → lens o.b.toNat o.b.toNat) ∧
      (o.ins = .kvroll g d a hi → (cl ≠ 0 ∨ sorted) → lens cl cl)) ∧
    (∀ r t, let ok := fun (s : State) => ∀ k, mwf (0, 0) 0 (s.cellar k).lens = true ∧
        ∀ slot, (lensOf s k slot).1 ≤ (lensOf s k slot).2 ∧ (lensOf s k slot).2 ≤ 1048576
      ok s → exec (.cellarRequestPerform n r) s = .next t → ok t) ∧
    (∀ (g : Guard) (d a b k : Port) (hi : Bool), (s.cellar n).reqs = [o] → (s.cellar n).batches = [] → o.phase = .started →
      cellarLets s n o = true → s.memOk = true →
      (∀ (f : Fmt) (base : Nat) (s2 : State) (p : Page),
        let e := AppendDesc.of o.data
        let tl := (lensOf s n e.slot).2
        let place := p.base + 64 + tl % 64 * p.hg * 128 * p.w
        o.ins = .kvappGap g d a b k hi → o.c = 1 → e.ok = true → pageFmt e.fmt = some f → slotOwned s o.part n e.slot = true → tl < 1048576 →
        pageBase s o.part n e.plist tl = .ok base → startToken s o.part n base (tl % 64) f e.hgc = .ok (s2, p) →
        ∃ t, exec (.cellarRequestPerform n 0) s = .next t ∧ lensOf t n e.slot = ((lensOf s n e.slot).1, tl + 1) ∧
          readNat t .pa place 8 = bytesAt o.data 32 8 ∧ readNat t .pa (place + 8) 1 = bytesAt o.data 12 1 ∧
          bitAt (readNat t .pa p.base 64) (128 + tl % 64) = true) ∧
      (∀ f bytes, o.ins = .attn g d a b k hi → Handle.size o.ha 1 = 1 → s1.memOk = true → o.c.toNat + 1024 ≤ 0x200000 →
        attnRow s o.part n (o.data.take 32) (pairOf (o.data.drop 32)) = (s1, f, .ok bytes) →
        ∃ t, exec (.cellarRequestPerform n 0) s = .next t ∧ readBytes t (.core o.core) o.c.toNat 1024 = bytes ∧
          ∀ sp i, spaceExists sp → i < sp.size → ¬(sp = .core o.core ∧ o.c.toNat ≤ i ∧ i < o.c.toNat + 1024) → readByte t sp i = readByte s1 sp i))) ∧
  (∀ (s : State) (c n : Nat) (hi : Bool) (o : Op) (bt : Batch) (g : Guard) (d a : Port) (nt : Notice), s.power = true → c < 256 →
    let x := s.core c
    let lane := fun (t : State) => (t.core c).ctx.lane hi
    ((lane s).grants ≠ 0 → ∃ t, exec (.permitGrant c hi) s = .next t ∧ (lane t).held = (lane s).held + 1 ∧
      (lane t).grants = (lane s).grants - 1 ∧ (lane t).perm = (lane s).perm ∧ (t.core c).ctx.lane (!hi) = x.ctx.lane (!hi) ∧ SameBytes s t) ∧
    (n < 8 → (s.cellar n).batches = [bt] → (s.cellar n).reqs = [] → bt.done = false → bt.op.core = c → Plain s bt.op →
      Handle.size bt.op.ha 1 = 0 → countsOutstanding bt.op.ins = true → cellarLets s n bt.op = true → incrsDone s bt.op = true → ∃ t, exec (.microBatchPerform n 0) s = .next t ∧
        (t.cellar n).batches = [{ bt with rows := [], done := true }] ∧ (t.core c).outst = x.outst - 1 ∧ SameBytes s t) ∧
    (o.core = c → Plain s o → x.recv = [o] → o.ins = .shrecv g d a hi → o.fails = 0 → cellarOf o = n → (s.cellar n).batches = [bt] →
      bt.op.core = c → bt.hi = hi → bt.done = true → bt.rows = [] → cellarLets s n o = true →
      exec (.microBatchDeliver c hi) s = .next (endOp ((s.modCellar n fun k => { k with batches := [] }).modCore c fun x =>
        { x with recv := [], ctx := x.ctx.modLane hi fun l =>
          { l with pend := l.pend - 1, grants := l.grants + 1, sizes := l.sizes.tail } }) o)) ∧
    (s.notices = [nt] → nt.phase = .performed → nt.op.core = c → Plain s nt.op →
      exec (.exitnAck 0) s = .next (endOp { s with notices := [] } nt.op)) ∧
    (s.notices = [nt] → nt.phase = .queued → nt.mod ≠ s.modno →
      exec (.noticeTargetUnreachable 0) s = .next (failOp { s with notices := [] } nt.op 0x147 0 0)) ∧
    (s.notices = [nt] → nt.mod = s.modno → (noticePlace s nt).isSome = true → (s.hatchOf nt.name).full = false →
      exec (.noticeTargetUnreachable 0) s = .next s) ∧
    (∀ place, s.notices = [nt] → nt.phase = .queued → nt.mod = s.modno → nt.die < 4 → nt.hq < 256 → nt.bytes.length = 64 → s.memOk = true →
      let name := nt.die * 256 + nt.hq
      let h := s.hatchOf name
      h.cfg.getLsbD 63 = true → h.cfg.getLsbD 62 = true → h.cnt < h.cap → hatchPlace s name (h.line h.tail) = some place →
      noticeLets s nt = true →
      ∃ t, exec (.noticeAppend 0) s = .next t ∧ readBytes t (.die nt.die) place 64 = nt.bytes ∧ t.hatchOf name = h.push ∧
        t.notices = [{ nt with phase := .performed }] ∧ t.cores = s.cores))

/-- CORE_RELEASE, STEP_RING_APPEND: a drained core's step is recorded: its 32-byte record goes to the next place of the
partition's step ring, SCRPROD counts it, and the core is free, its loop stack empty. With the ring full the record waits.
STEP_DISPATCH, STEP_START: the next step of a running task goes to an idle core of it, where no die is to be withdrawn first: the
core starts at the OPB's entry with the step's loop indices in s0 to s5, every other scalar register 0, SCYC 0 and nothing in
flight; once its overlay is resident the step runs. Which step and core come next (notes/assumptions/14.md) and the tag
(notes/assumptions/63.md) are the model's. CONTEXT_RESUME, GROUP_DOMAIN_ARRIVAL: a yielded context goes on once a flag of its mask
is at least 1; an arrival from another module is noted in the task's control block. That it is noted there is the model's
(notes/assumptions/31.md). -/
def Obligations.StepEvents : Prop :=
  (∀ (s : State) (c : Nat) (r : RingRec), s.memOk = true → s.power = true → c < 256 → (s.core c).part < 8 →
    let p := (s.core c).part
    let q := s.part p
    let place := hostPa (q.d 160 8 + 32 * (q.scrprod.toNat % 2 ^ q.d 168 1))
    q.set = true → q.ringFull = false →
    ((s.core c).drained = true → (s.core c).rerunning = false → (s.core c).preReq = false → (s.core c).swReq = false →
      (s.core c).yieldHeld = none → (s.core c).stepst = 0 → q.ring = [] → (∀ k < 256, (s.core k).arrived = none) → (∀ k < 8, (s.cellar k).batches = []) →
      ∃ t, exec (.coreRelease c) s = .next t ∧ (t.core c).act = .free ∧ (t.core c).ctx.seq.depth = 0 ∧ (t.core c).ckpt = none ∧
        (t.part p).scrprod = q.scrprod + 1 ∧ (t.part p).ring = [] ∧
        readNat t .pa place 32 = (BitVec.ofNat 256 (stepRecord (s.core c) c 0 0)).toNat) ∧
    (q.ring = [r] → r.core = none → r.after = none → q.walk = [] →
      ∃ t, exec (.stepRingAppend p) s = .next t ∧ (t.part p).scrprod = q.scrprod + 1 ∧ (t.part p).ring = [] ∧
        readNat t .pa place 32 = r.bits.toNat ∧ t.cores = s.cores)) ∧
  ((∀ (s : State) (p h c lin : Nat), s.power = true → p < 8 → c < 256 →
    let x := s.core c
    let t := s.tcb p h
    (s.part p).set = true → t.state = .running → t.fails = 0 → (s.part p).blocked = false → (s.part p).pausing = false →
    (s.part p).replay = none → x.act = .free → x.mode = .u → x.ctag ≠ 0 → x.part = p → x.task = h → c ∈ t.cores → x.swReq = false →
    (s.part p).d 170 2 = 0 → withdrawDue s p h = false → t.nextStep c = some lin → entryResident x t.opb = true →
    ∃ z, exec (.stepDispatch p h c) s = .next z ∧ (z.core c).act = .starting ∧ (z.core c).lin = lin ∧
      (z.tcb p h).live = t.live ++ [lin] ∧ (z.core c).ctx.seq.pc = opbEntry t.opb ∧ (z.core c).ctx.seq.depth = 0 ∧
      (z.core c).ctx.scyc = 0 ∧ (z.core c).ctx.flights = [] ∧
      (∀ l < 6, vget (z.core c).ctx.s l 0 = BitVec.ofNat 64 (opbIndex t.opb lin l)) ∧
      (∀ r, 6 ≤ r → r < 64 → vget (z.core c).ctx.s r 0 = 0) ∧ (∀ k, k ≠ c → z.core k = s.core k) ∧ SameBytes s z) ∧
  ∀ (s : State) (c : Nat), s.power = true → c < 256 → (s.core c).act = .starting →
    entryResident (s.core c) (s.tcb (s.core c).part (s.core c).task).opb = true → (s.core c).inten = false →
    ∃ t, exec (.stepStart c) s = .next t ∧ (t.core c).act = .running ∧ (t.core c).ctx = (s.core c).ctx ∧ SameBytes s t ∧
      ∀ k, k ≠ c → t.core k = s.core k) ∧
  (∀ (s : State) (c p h col gid : Nat) (m : BitVec 32), s.power = true → c < 256 → p < 8 →
    ((s.core c).yielded = some m → (s.core c).parked = [] →
      (wakes (s.core c) (s.core c).ctag m (s.core c).ctx.flagVal = true →
        exec (.contextResume c) s = .next (s.modCore c fun x => { x with yielded := none })) ∧
      (wakes (s.core c) (s.core c).ctag m (s.core c).ctx.flagVal = false → exec (.contextResume c) s = .next s)) ∧
    ((s.tcb p h).state = .running → (∀ k < 256, (s.core k).arrived = none) →
      ∃ t, exec (.groupDomainArrival p h col gid) s = .next t ∧ (t.tcb p h).remote = (s.tcb p h).remote ++ [(col, gid)] ∧
        t.cores = s.cores ∧ SameBytes s t))

/-- ARMING_PERFORM, TASK_PLACE, TASK_DONE, TASK_FAILED, DIE_COUNT_CHANGE: an arming gives its task a control block, waiting while
its count is not 0, else ready; a decrement lowers the count; a ready task is placed on rectangles and its cores hold its
contexts; a task whose steps are done is done and lowers the count of each successor; one with a failed step fails; and at a stage
boundary a task takes one more rectangle or gives its last die's back. Here the partition neither replays nor keeps a replay
store. The context that a placement resets (notes/assumptions/65.md), fresh tags (notes/assumptions/63.md), the number of
rectangles (notes/assumptions/62.md) and the windows they must fit (notes/assumptions/61.md) are the model's. -/
def Obligations.TaskEvents : Prop :=
  ∀ (s : State) (p h : Nat) (a : Arming) (b : BitVec 2048) (rects : List Rect) (r : Rect), s.power = true → p < 8 →
    let q := s.part p
    let t := s.tcb p h
    q.set = true → q.blocked = false → q.replay = none → q.d 170 2 = 0 →
    (q.intake = [a] → a.op = none → a.dec = false → a.handle = h → readOpb s p h = .ok b → opbMalformed q b = false → t.busy = false →
      let n := a.cnt.getD (opbDepc b)
      ∃ z, exec (.armingPerform p) s = .next z ∧ (z.part p).intake = [] ∧
        z.tcb p h = { Tcb.zero with state := if n = 0 then .ready else .waiting, depc := n, opb := b } ∧ z.cores = s.cores) ∧
    (∀ n, q.intake = [a] → a.op = none → a.dec = true → a.handle = h → a.cnt = some n → t.state = .waiting → n ≤ t.depc →
      ∃ z, exec (.armingPerform p) s = .next z ∧ (z.part p).intake = [] ∧ (z.tcb p h).depc = t.depc - n ∧
        (z.tcb p h).state = (if t.depc = n then .ready else .waiting) ∧ z.cores = s.cores) ∧
    (q.tear = false → q.pausing = false → q.ready = [h] → risingDies rects = true → opbDmin t.opb ≤ rects.length →
      rects.length ≤ opbDmax t.opb → rects.all (rectFits s p t.opb) = true →
      let cores := rects.flatMap (rectCores t.opb)
      ∃ z, exec (.taskPlace p h rects) s = .next z ∧ (z.tcb p h).state = .running ∧ (z.tcb p h).rects = rects ∧
        (z.tcb p h).ndie = rects.length ∧ (∀ e ∈ cores.zip (freshTags s cores.length), (s.core e.1).act = .free →
          (z.core e.1).part = p ∧ (z.core e.1).task = h ∧ (z.core e.1).ctx = Ctx.reset) ∧
        (∀ k, k ∉ cores → z.core k = s.core k) ∧ SameBytes s z) ∧
    (t.state = .running → t.live = [] → t.redo = [] → t.fails = 0 → t.next = opbSteps t.opb →
      (opbSucc t.opb = [] → ∃ z, exec (.taskDone p h) s = .next z ∧ (z.tcb p h).state = .done ∧ (z.tcb p h).rects = [] ∧ SameBytes s z) ∧
      (∀ k, opbSucc t.opb = [k] → k ≠ h → (s.tcb p k).state = .waiting → ∃ z, exec (.taskDone p h) s = .next z ∧
        (z.tcb p h).state = .done ∧ z.tcb p k = (s.tcb p k).lower 1 ∧ SameBytes s z)) ∧
    (t.state = .running → t.fails ≠ 0 → t.live = [] → opbPol t.opb = true →
      ∃ z, exec (.taskFailed p h) s = .next z ∧ (z.tcb p h).state = .failed ∧ (z.tcb p h).rects = [] ∧ SameBytes s z) ∧
    (q.pausing = false → t.state = .running → t.fails = 0 → t.live = [] → t.redo = [] → t.next < opbSteps t.opb →
      opbBoundary t.opb t.next = true →
      (r ∈ t.rects → r.die = lastDie t.rects → opbDmin t.opb < t.ndie → unplacedBefore s p h = true →
        (∀ c ∈ t.lastCores, (s.core c).act = .free) → ∃ z, exec (.dieCountChange p h r) s = .next z ∧
          (z.tcb p h).ndie = t.ndie - 1 ∧ (z.tcb p h).rects = (t.rects.filter fun y => y.die != r.die) ∧ SameBytes s z) ∧
      ((∀ y ∈ t.rects, y.die ≠ r.die) → t.ndie < opbDmax t.opb → q.tear = false → rectFits s p t.opb r = true →
        ∃ z, exec (.dieCountChange p h r) s = .next z ∧ (z.tcb p h).ndie = t.ndie + 1 ∧ (z.tcb p h).rects = t.rects ++ [r] ∧
          SameBytes s z))

/-- DOORBELL_WRITE, COMMAND_FETCH, COMMAND_FETCH_RETRY: a doorbell sets the tail and wakes the fetcher; a queue with an entry in
it has the entry fetched: one whose sequence and CRC are right is the queue's command, and HEAD moves past it; any other is read
again, and after its ninth read is completed with status 1, the queue stale. A record's place, n modulo the ring's size, is the
model's (notes/assumptions/68.md). ARM, DEC, DBGSTOP, INVAL, INVAL_COMPLETE, PSETUP, PTEAR, ATTEST: each command of a host queue
has its effect and is completed with status 0 and cause 0: its record holds the entry's sequence and opcode, and the queue has no
command. An INVAL that completes leaves no cached translation of its range. The order of permission checks
(notes/assumptions/70.md), what teardown clears (notes/assumptions/71.md) and which cached ranges go (notes/assumptions/72.md) are
the model's. -/
def Obligations.HostCommands : Prop :=
  (∀ (s : State) (q v : Nat) (ro : Bool) (i : Command), s.power = true → q < 16 →
    let x := s.queue q
    let e := BitVec.ofNat 512 (readNat s .pa (hostPa (x.base + 64 * (x.head.toNat % x.size))) 64)
    let good := entF e 0 4 = x.head.toNat ∧ entF e 4 4 = entryCrc e
    (∃ t, exec (.doorbellWrite q v ro) s = .next t ∧ t.queue q = { x with tail := BitVec.ofNat 32 v, rung := true, stale := false } ∧
      t.cores = s.cores ∧ t.mem = s.mem) ∧
    (served s q = true →
      (x.tries = 0 → x.head ≠ x.tail → good → permitted s q (entF e 8 1) = true → commandOf e = some i →
        ∃ t, exec (.commandFetch q) s = .next t ∧ t.queue q = { x with head := x.head + 1, tries := 0, cur := some e } ∧
          t.cores = s.cores ∧ t.mem = s.mem) ∧
      (x.tries = 0 → x.head ≠ x.tail → ¬good → ∃ t, exec (.commandFetch q) s = .next t ∧ t.queue q = { x with tries := 1 } ∧
        t.cores = s.cores ∧ t.mem = s.mem) ∧
      (0 < x.tries → x.tries < 8 → ¬good → ∃ t, exec (.commandFetchRetry q) s = .next t ∧ t.queue q = { x with tries := x.tries + 1 } ∧
        t.cores = s.cores ∧ t.mem = s.mem) ∧
      (x.tries = 8 → ¬good → ∃ t, exec (.commandFetchRetry q) s = .next t ∧ (t.queue q).stale = true ∧ (t.queue q).head = x.head ∧
        (t.queue q).tries = 0 ∧ t.cores = s.cores))) ∧
  (∀ (s : State) (q p h n c va len nonce report : Nat) (usec : Bool) (e : BitVec 512), s.memOk = true → s.power = true → q < 16 → p < 8 → c < 256 →
    let x := s.queue q
    let ends := fun (t : State) => (t.queue q).cur = none ∧
      readNat t .pa (hostPa (x.cplBase + 32 * (entF e 0 4 % x.size))) 32 = entF e 0 4 + entF e 8 1 * 2 ^ 32
    x.cur = some e →
    (commandOf e = some (.arm h n usec) → queuePart s q = p → h < (s.part p).opbcnt → (s.part p).intake.length < 256 →
      ∃ t, exec (.arm q h n usec) s = .next t ∧ ends t ∧ t.cores = s.cores ∧
        (t.part p).intake = (s.part p).intake ++ [⟨h, false, if usec then some n else none, none⟩]) ∧
    (commandOf e = some (.dec h n) → queuePart s q = p → h < (s.part p).opbcnt → (s.part p).intake.length < 256 →
      ∃ t, exec (.dec q h n) s = .next t ∧ ends t ∧ t.cores = s.cores ∧
        (t.part p).intake = (s.part p).intake ++ [⟨h, true, some n, none⟩]) ∧
    (commandOf e = some (.dbgstop c) →
      ((s.core c).act = .free → ∃ t, exec (.dbgstop q c) s = .next t ∧ ends t ∧ t.cores = s.cores) ∧
      ((s.core c).act = .running → x.asked = false → ∃ t, exec (.dbgstop q c) s = .next t ∧ (t.queue q).cur = some e ∧
        (t.core c).dbgReq = some q ∧ (t.core c).held = (s.core c).held ++ [⟨0x173, 0, 2, 0, 0, true, false⟩] ∧
        (t.core c).ctx = (s.core c).ctx ∧ t.mem = s.mem)) ∧
    (commandOf e = some (.inval p va len) → x.asked = false → ownQueue s q p = true → (∀ k < 256, (s.core k).part ≠ p) →
      ∃ t, exec (.inval q p va len) s = .next t ∧ (t.queue q).asked = true ∧
        (t.part p).inval = (s.part p).inval ++ [(q, va, len)] ∧ t.cores = s.cores ∧ t.mem = s.mem) ∧
    ((s.part p).inval = [(q, va, len)] → ∃ t, exec (.invalComplete p) s = .next t ∧ ends t ∧ (t.part p).inval = [] ∧
      t.cores = s.cores ∧ ∀ (k : Nat) (r : XRange), r ∈ t.ranges k → r.part = p → va + len ≤ r.vb ∨ r.vb + r.len ≤ va) ∧
    (commandOf e = some (.psetup p va) →
      let d := BitVec.ofNat 8192 (readNat s .pa (hostPa va) 1024)
      descOk p d = true → (s.part p).set = false → descUnavailable s.status d = false →
      (∀ k < 8, (s.part k).set = true → descMeet (s.part k).desc d = false) →
      ∃ t, exec (.psetup q p va) s = .next t ∧ ends t ∧ t.part p = { Part.empty with set := true, desc := d } ∧
        (∀ k, k ≠ p → t.part k = s.part k) ∧ t.cores = s.cores) ∧
    (commandOf e = some (.ptear p) → (s.part p).set = true →
      (contextsLeft s p = false → (∀ v ∈ (s.part p).inval, v.1 ≠ q) → ∃ t, exec (.ptear q p) s = .next t ∧ ends t ∧ t.part p = Part.empty ∧
        (∀ k, k ≠ p → t.part k = s.part k) ∧ t.cores = s.cores) ∧
      (contextsLeft s p = true → ∃ t, exec (.ptear q p) s = .next t ∧ (t.part p).tear = true ∧ (t.queue q).cur = some e ∧
        t.mem = s.mem)) ∧
    (commandOf e = some (.attest nonce report) → q = 0 →
      ∃ t, exec (.attest q nonce report) s = .next t ∧ ends t ∧ t.cores = s.cores ∧ t.parts = s.parts))

/-- BAR4_ACCESS, MODULE_RESET, THERMAL_THROTTLE, THERMAL_STOP, POWER_REMOVAL, REPLAY_CHECKPOINT, REPLAY: a host write through a
window writes its byte and a read writes nothing; a module reset gives every core and partition its reset value and keeps HBM and
host memory, and firmware runs only from an image that may run; the clock moves one step between 7 and 14; a hot module stops;
removing power loses all but host memory; a replay checkpoint is taken once the partition's cores rest, and a replay goes back to
it. What reset and power removal keep (notes/assumptions/77.md), the start's stages (notes/assumptions/76.md), the stopped
module's status (notes/assumptions/78.md), the clock of BAR4 (notes/assumptions/79.md) and what a replay restores
(notes/assumptions/67.md, 99.md) are the model's. R419, R421, R422: QCFG and QCPL of queue q lie at 0x1000 + 64q and 0x1008 + 64q
of BAR0, SCRCONS of partition p at 0x110 + 32p, and the doorbell of queue q at 8q of BAR2: a host write there is the register's
own; a read of offset 0 gives MSTAT. -/
def Obligations.ModuleEvents : Prop :=
  (∀ (s : State) (off a temp watts p : Nat) (b : Byte) (sp : Space) (stages : List StageRec), s.memOk = true → s.power = true → p < 8 →
    (s.bar = [] → bar4Place s off = some (sp, a) → barLets s ⟨off, some b, (s.die 0).vc⟩ = true → ∃ t, exec (.bar4Access off (some b)) s = .next t ∧ readByte t sp a = b ∧ t.cores = s.cores) ∧
    (s.bar = [] → barLets s ⟨off, none, (s.die 0).vc⟩ = true → exec (.bar4Access off none) s = .next s) ∧
    (∀ wr, barLets s ⟨off, wr, (s.die 0).vc⟩ = false → s.bar = [] →
      exec (.bar4Access off wr) s = .next { s with bar := [⟨off, wr, (s.die 0).vc⟩] }) ∧
    (∃ t, exec (.moduleReset stages) s = .next t ∧ t.power = true ∧ t.cores = State.reset.cores ∧ t.parts = State.reset.parts ∧
      t.dies = State.reset.dies ∧ t.queues = State.reset.queues ∧ t.net = [] ∧ t.discard = [] ∧ (∀ x < 2 ^ 52, mget 0 x t.mem = mget 0 x s.mem) ∧
      (s.journal = [] → stages = [] → (imageRuns = true → t.status.stage = 9 ∧ t.status.run = true ∧ t.status.recov = false) ∧
        (imageRuns = false → t.status.stage = 2 ∧ t.status.run = false))) ∧
    (∃ t, exec (.thermalThrottle temp watts) s = .next t ∧ t.cores = s.cores ∧ t.mem = s.mem ∧ t.status.tmax = min 255 temp ∧
      (95 < temp ∨ 2000 < watts → t.status.clk = max 7 (s.status.clk - 1)) ∧
      (temp < 90 → watts ≤ 2000 → t.status.clk = min 14 (s.status.clk + 1)) ∧
      (90 ≤ temp → temp ≤ 95 → watts ≤ 2000 → t.status.clk = s.status.clk)) ∧
    (110 ≤ temp → ∃ t, exec (.thermalStop temp) s = .next t ∧ t.status.hot = true ∧ t.cores = s.cores ∧ t.mem = s.mem ∧ t.agenda = s.agenda ∧
      (t.agenda = [] → step t = .next t) ∧ ∀ (c : Nat) (r : List Act'), t.agenda = .run c :: r → step t = .next { t with agenda := r }) ∧
    (∃ t, exec .powerRemoval s = .next t ∧ t.power = false ∧ t.cores = State.reset.cores ∧ t.parts = State.reset.parts ∧
      (∀ x, 2 ^ 51 ≤ x → x < 2 ^ 52 → mget 0 x t.mem = mget 0 x s.mem) ∧ ∀ x, x < 2 ^ 51 ∨ 2 ^ 52 ≤ x → mget 0 x t.mem = 0) ∧
    ((s.part p).set = true → (s.part p).d 170 2 ≠ 0 →
      ((s.part p).pausing = false → ∃ t, exec (.replayCheckpoint p) s = .next t ∧ (t.part p).pausing = true ∧ t.mem = s.mem) ∧
      ((s.part p).pausing = true → (s.part p).replay = none →
        (∀ c < 256, (s.part p).hasCluster (clusterOf c) = true → (s.core c).atRest = true ∧ (s.core c).outst = 0) →
        ∃ t k, exec (.replayCheckpoint p) s = .next t ∧ (t.part p).pausing = false ∧ (t.part p).ckpts = (s.part p).ckpts ++ [k] ∧
          k.tcbs = (s.part p).tcbs ∧ k.logAt = (s.part p).logs.length ∧ t.cores = s.cores ∧
          (∀ c < 256, (s.part p).hasCluster (clusterOf c) = true → (c, s.core c) ∈ k.cores) ∧
          ((s.part p).ckpts = [] → ∀ x, (s.part p).owns x = true → mget 0 x k.mem = mget 0 x s.mem))) ∧
    (∀ (n c : Nat) (k : Snapshot) (x : Core), (s.part p).set = true → (s.part p).ckpts[n]? = some k → k.cores = [(c, x)] → c < 256 →
      ∃ t, exec (.replay p n) s = .next t ∧ t.core c = x ∧ (∀ j, j ≠ c → t.core j = s.core j) ∧ (t.part p).tcbs = k.tcbs ∧
        (t.part p).intake = k.intake ∧ (t.part p).ring = k.ring ∧ (t.part p).pausing = false ∧ (t.part p).logs = (s.part p).logs ∧
        (t.part p).ckpts = (s.part p).ckpts ∧
        (t.part p).replay = if (s.part p).logs.drop k.logAt = [] then none else some ((s.part p).logs.drop k.logAt))) ∧
  (∀ (s : State) (q p : Nat) (v : Word) (w : BitVec 32), s.power = true → q < 16 → p < 8 →
    exec (.qcfgWrite q false v) s = .next (bar0Write s (0x1000 + 64 * q) v) ∧
    exec (.qcfgWrite q true v) s = .next (bar0Write s (0x1008 + 64 * q) v) ∧
    exec (.scrconsWrite p v) s = .next (bar0Write s (0x110 + 32 * p) v) ∧
    (∀ ro, exec (.doorbellWrite q w.toNat ro) s = .next (bar2Write s (8 * q) w)) ∧
    bar0Read s (0x1000 + 64 * q) = (s.queue q).qcfg ∧ bar0Read s (0x1008 + 64 * q) = (s.queue q).qcpl ∧
    bar0Read s (0x1010 + 64 * q) = qstat (s.queue q) ∧ bar0Read s (0x108 + 32 * p) = partStatus (s.part p) 1 ∧ bar0Read s 0 = mstat s)
end

