-- ==== Sys2Proof/Laws/Encode.lean ====
section
/-! SUPPORT. Laws/Encode.lean: what the decoder's readers give on what the encoder's writers wrote: ports, guards, codes, the
fields of a slot, and the fields of X. -/

namespace Sys2Proof

/-- Every port has its own byte (R35). -/
theorem Port.ofByte_toByte (p : Port) : Port.ofByte p.toByte = p := by
  cases p with
  | lc => decide
  | z => decide
  | _ n => revert n; decide

theorem Guard.ofCode_code (g : Guard) : Guard.ofCode g.code = g := by
  obtain ⟨n, p⟩ := g; revert n p; decide

/-- Which field each bit of a slot belongs to (R28). -/
theorem Raw.getLsbD_toBits (r : Raw) (i : Nat) : r.toBits.getLsbD i =
    if i < 27 then r.x.getLsbD i else if i < 35 then r.b.getLsbD (i - 27) else if i < 43 then r.a.getLsbD (i - 35)
    else if i < 51 then r.d.getLsbD (i - 43) else if i < 55 then r.g.getLsbD (i - 51) else if i < 63 then r.op.getLsbD (i - 55)
    else i == 63 && r.stop := by
  have h : r.toBits.getLsbD i = BitVec.getLsbD (w := 1 + 8 + 4 + 8 + 8 + 8 + 27) (BitVec.ofBool r.stop ++ r.op ++ r.g ++ r.d ++ r.a ++ r.b ++ r.x) i := rfl
  rw [h]
  simp only [BitVec.getLsbD_append, BitVec.getLsbD_ofBool]
  repeat' split
  all_goals (first | rfl | omega | (congr 1; omega) |
    (congr 1; rw [Bool.eq_iff_iff, decide_eq_true_iff, beq_iff_eq]; omega))

/-- The seven fields of a slot come back from its 64 bits (R28). -/
theorem Raw.ofBits_toBits (r : Raw) : Raw.ofBits r.toBits = r := by
  obtain ⟨s, op, g, d, a, b, x⟩ := r
  simp only [Raw.ofBits, Raw.mk.injEq]
  refine ⟨?_, ?_, ?_, ?_, ?_, ?_, ?_⟩
  · rw [Raw.getLsbD_toBits]; simp
  all_goals
    apply BitVec.eq_of_getLsbD_eq; intro i hi
    simp only [BitVec.getLsbD_extractLsb', Raw.getLsbD_toBits, hi, decide_true, Bool.true_and]
    repeat' split
    all_goals (first | rfl | omega | (congr 1; omega))

theorem Rnd.ofCode_code (x : Rnd) : Rnd.ofCode x.code = some x := by cases x <;> rfl
theorem Fmt.ofCode_code (x : Fmt) : Fmt.ofCode x.code = some x := by cases x <;> rfl
theorem SD.ofCode_code (x : SD) : SD.ofCode x.code = some x := by cases x <;> rfl
theorem CmpCond.ofCode_code (x : CmpCond) : CmpCond.ofCode x.code = some x := by cases x <;> rfl
theorem FCond.ofCode_code (x : FCond) : FCond.ofCode x.code = some x := by cases x <;> rfl
theorem VCond.ofCode_code (x : VCond) : VCond.ofCode x.code = some x := by cases x <;> rfl
theorem BrCond.ofCode_code (x : BrCond) : BrCond.ofCode x.code = some x := by cases x <;> rfl
theorem Scope.ofCode_code (x : Scope) : Scope.ofCode x.code = some x := by cases x <;> rfl
theorem Lvl.ofCode_code (x : Lvl) : Lvl.ofCode x.code = some x := by cases x <;> rfl
theorem RedOp.ofCode_code (x : RedOp) : RedOp.ofCode x.code = some x := by cases x <;> rfl
theorem RowSel.ofCode_code (x : RowSel) : RowSel.ofCode x.code = some x := by cases x <;> rfl

/-- A port of an accepted kind, not reserved and not a system register, gives no error. -/
theorem kindErr_nil {ok : Bool} {p : Port} (h : ok = true) (r : ∀ c, p ≠ .reserved c) (y : ∀ c, p ≠ .sys c) : kindErr ok p = [] := by
  subst h
  cases p with
  | reserved c => exact absurd rfl (r c)
  | sys c => exact absurd rfl (y c)
  | _ => rfl

theorem xput_getLsbD {w : Nat} (v : BitVec w) (lo i : Nat) :
    (xput v lo).getLsbD i = (decide (i < 27) && decide (lo ≤ i) && v.getLsbD (i - lo)) := by
  simp only [xput, BitVec.getLsbD_shiftLeft, BitVec.getLsbD_setWidth]
  by_cases h : i < 27 <;> by_cases h' : lo ≤ i <;> simp [h, h']
  simp [show ¬i < lo by omega, show i - lo < 27 by omega]

/-- A field of X read back where it stands alone. -/
theorem xput_same {w : Nat} (v : BitVec w) (lo : Nat) (h : lo + w ≤ 27) : (xput v lo).extractLsb' lo w = v := by
  apply BitVec.eq_of_getLsbD_eq; intro i hi
  rw [BitVec.getLsbD_extractLsb', xput_getLsbD]
  simp only [hi, decide_true, Bool.true_and, Nat.le_add_right, show lo + i < 27 by omega, show lo + i - lo = i by omega]

/-- A field of X that overlaps no other reads 0 there. -/
theorem xput_apart {w : Nat} (v : BitVec w) (lo k n : Nat) (h : k + n ≤ lo ∨ lo + w ≤ k) : (xput v lo).extractLsb' k n = 0#n := by
  apply BitVec.eq_of_getLsbD_eq; intro i hi
  rw [BitVec.getLsbD_extractLsb', xput_getLsbD, BitVec.getLsbD_zero]
  rcases h with h | h
  · simp; omega
  · simp [show w ≤ k + i - lo by omega]

theorem xbit_same (v : Bool) (lo : Nat) (h : lo < 27) : (xbit v lo).getLsbD lo = v := by
  rw [xbit, xput_getLsbD]; simp [h]
theorem xput_bit {w : Nat} (v : BitVec w) (lo k : Nat) (h : k < lo ∨ lo + w ≤ k) : (xput v lo).getLsbD k = false := by
  rw [xput_getLsbD]
  rcases h with h | h
  · simp; omega
  · simp [show w ≤ k - lo by omega]

theorem xput_and {w : Nat} (v : BitVec w) (lo : Nat) (m : BitVec 27) (h : ∀ i < w, m.getLsbD (lo + i) = false) : xput v lo &&& m = 0#27 := by
  apply BitVec.eq_of_getLsbD_eq; intro i hi
  rw [BitVec.getLsbD_and, xput_getLsbD, BitVec.getLsbD_zero]
  by_cases a : lo ≤ i
  · by_cases b : i - lo < w
    · have := h _ b
      rw [show lo + (i - lo) = i by omega] at this
      simp [this]
    · simp [show w ≤ i - lo by omega]
  · simp [a]
end Sys2Proof
end

