-- ==== Sys2Proof/Laws/Exec.lean ====
section
/-! SUPPORT. Laws/Exec.lean: exec answers with the meaning of its instruction, one equation per constructor. -/

namespace Sys2Proof.Machine

theorem exec_add (u : Alu) (g : Guard) (e : Bool) (d a b : Port) (s : State):
    exec (.add u g e d a b) s = execAdd u g e d a b s := rfl
theorem exec_addi (u : Alu) (g : Guard) (d a : Port) (imm : BitVec 27) (s : State):
    exec (.addi u g d a imm) s = execAddi u g d a imm s := rfl
theorem exec_sub (u : Alu) (g : Guard) (e : Bool) (d a b : Port) (s : State):
    exec (.sub u g e d a b) s = execSub u g e d a b s := rfl
theorem exec_mul (u : Alu) (g : Guard) (e : Bool) (d a b : Port) (s : State):
    exec (.mul u g e d a b) s = execMul u g e d a b s := rfl
theorem exec_mulh (u : Alu) (g : Guard) (e : Bool) (d a b : Port) (s : State):
    exec (.mulh u g e d a b) s = execMulh u g e d a b s := rfl
theorem exec_mulhu (u : Alu) (g : Guard) (e : Bool) (d a b : Port) (s : State):
    exec (.mulhu u g e d a b) s = execMulhu u g e d a b s := rfl
theorem exec_div (u : Alu) (g : Guard) (e : Bool) (d a b : Port) (s : State):
    exec (.div u g e d a b) s = execDiv u g e d a b s := rfl
theorem exec_divu (u : Alu) (g : Guard) (e : Bool) (d a b : Port) (s : State):
    exec (.divu u g e d a b) s = execDivu u g e d a b s := rfl
theorem exec_rem (u : Alu) (g : Guard) (e : Bool) (d a b : Port) (s : State):
    exec (.rem u g e d a b) s = execRem u g e d a b s := rfl
theorem exec_remu (u : Alu) (g : Guard) (e : Bool) (d a b : Port) (s : State):
    exec (.remu u g e d a b) s = execRemu u g e d a b s := rfl
theorem exec_and (u : Alu) (g : Guard) (e : Bool) (d a b : Port) (s : State):
    exec (.and u g e d a b) s = execAnd u g e d a b s := rfl
theorem exec_andn (u : Alu) (g : Guard) (e : Bool) (d a b : Port) (s : State):
    exec (.andn u g e d a b) s = execAndn u g e d a b s := rfl
theorem exec_or (u : Alu) (g : Guard) (e : Bool) (d a b : Port) (s : State):
    exec (.or u g e d a b) s = execOr u g e d a b s := rfl
theorem exec_xor (u : Alu) (g : Guard) (e : Bool) (d a b : Port) (s : State):
    exec (.xor u g e d a b) s = execXor u g e d a b s := rfl
theorem exec_shl (u : Alu) (g : Guard) (e : Bool) (d a b : Port) (s : State):
    exec (.shl u g e d a b) s = execShl u g e d a b s := rfl
theorem exec_shr (u : Alu) (g : Guard) (e : Bool) (d a b : Port) (s : State):
    exec (.shr u g e d a b) s = execShr u g e d a b s := rfl
theorem exec_sar (u : Alu) (g : Guard) (e : Bool) (d a b : Port) (s : State):
    exec (.sar u g e d a b) s = execSar u g e d a b s := rfl
theorem exec_rol (u : Alu) (g : Guard) (e : Bool) (d a b : Port) (s : State):
    exec (.rol u g e d a b) s = execRol u g e d a b s := rfl
theorem exec_min (u : Alu) (g : Guard) (e : Bool) (d a b : Port) (s : State):
    exec (.min u g e d a b) s = execMin u g e d a b s := rfl
theorem exec_max (u : Alu) (g : Guard) (e : Bool) (d a b : Port) (s : State):
    exec (.max u g e d a b) s = execMax u g e d a b s := rfl
theorem exec_minu (u : Alu) (g : Guard) (e : Bool) (d a b : Port) (s : State):
    exec (.minu u g e d a b) s = execMinu u g e d a b s := rfl
theorem exec_maxu (u : Alu) (g : Guard) (e : Bool) (d a b : Port) (s : State):
    exec (.maxu u g e d a b) s = execMaxu u g e d a b s := rfl
theorem exec_clz (u : Alu) (g : Guard) (e : Bool) (d a : Port) (s : State):
    exec (.clz u g e d a) s = execClz u g e d a s := rfl
theorem exec_ctz (u : Alu) (g : Guard) (e : Bool) (d a : Port) (s : State):
    exec (.ctz u g e d a) s = execCtz u g e d a s := rfl
theorem exec_popc (u : Alu) (g : Guard) (e : Bool) (d a : Port) (s : State):
    exec (.popc u g e d a) s = execPopc u g e d a s := rfl
theorem exec_brev (u : Alu) (g : Guard) (e : Bool) (d a : Port) (s : State):
    exec (.brev u g e d a) s = execBrev u g e d a s := rfl
theorem exec_mov (u : Alu) (g : Guard) (e : Bool) (d a : Port) (s : State):
    exec (.mov u g e d a) s = execMov u g e d a s := rfl
theorem exec_ext (u : Alu) (g : Guard) (e : Bool) (d a : Port) (sx : Bool) (bpos len1 : BitVec 6) (s : State):
    exec (.ext u g e d a sx bpos len1) s = execExt u g e d a sx bpos len1 s := rfl
theorem exec_ins (u : Alu) (g : Guard) (e : Bool) (d a b : Port) (bpos len1 : BitVec 6) (s : State):
    exec (.ins u g e d a b bpos len1) s = execIns u g e d a b bpos len1 s := rfl
theorem exec_sel (u : Alu) (g : Guard) (e : Bool) (d a b c : Port) (s : State):
    exec (.sel u g e d a b c) s = execSel u g e d a b c s := rfl
theorem exec_cmp (u : Alu) (g : Guard) (e : Bool) (d a b : Port) (cond : CmpCond) (s : State):
    exec (.cmp u g e d a b cond) s = execCmp u g e d a b cond s := rfl
theorem exec_li (u : Alu) (g : Guard) (d : Port) (imm : BitVec 27) (s : State):
    exec (.li u g d imm) s = execLi u g d imm s := rfl
theorem exec_lih (u : Alu) (g : Guard) (d : Port) (imm : BitVec 37) (s : State):
    exec (.lih u g d imm) s = execLih u g d imm s := rfl
theorem exec_pset (u : Alu) (g : Guard) (d a : Port) (s : State):
    exec (.pset u g d a) s = execPset u g d a s := rfl
theorem exec_plog (u : Alu) (g : Guard) (d a b : Port) (tt : BitVec 4) (s : State):
    exec (.plog u g d a b tt) s = execPlog u g d a b tt s := rfl
theorem exec_fadd (u : Alu) (g : Guard) (e : Bool) (d a b : Port) (fmt : SD) (rm : Rnd) (s : State):
    exec (.fadd u g e d a b fmt rm) s = execFadd u g e d a b fmt rm s := rfl
theorem exec_fsub (u : Alu) (g : Guard) (e : Bool) (d a b : Port) (fmt : SD) (rm : Rnd) (s : State):
    exec (.fsub u g e d a b fmt rm) s = execFsub u g e d a b fmt rm s := rfl
theorem exec_fmul (u : Alu) (g : Guard) (e : Bool) (d a b : Port) (fmt : SD) (rm : Rnd) (s : State):
    exec (.fmul u g e d a b fmt rm) s = execFmul u g e d a b fmt rm s := rfl
theorem exec_ffma (u : Alu) (g : Guard) (e : Bool) (d a b c : Port) (fmt : SD) (rm : Rnd) (s : State):
    exec (.ffma u g e d a b c fmt rm) s = execFfma u g e d a b c fmt rm s := rfl
theorem exec_fdiv (u : Alu) (g : Guard) (e : Bool) (d a b : Port) (fmt : SD) (rm : Rnd) (s : State):
    exec (.fdiv u g e d a b fmt rm) s = execFdiv u g e d a b fmt rm s := rfl
theorem exec_fsqrt (u : Alu) (g : Guard) (e : Bool) (d a : Port) (fmt : SD) (rm : Rnd) (s : State):
    exec (.fsqrt u g e d a fmt rm) s = execFsqrt u g e d a fmt rm s := rfl
theorem exec_fmin (u : Alu) (g : Guard) (e : Bool) (d a b : Port) (fmt : SD) (s : State):
    exec (.fmin u g e d a b fmt) s = execFmin u g e d a b fmt s := rfl
theorem exec_fmax (u : Alu) (g : Guard) (e : Bool) (d a b : Port) (fmt : SD) (s : State):
    exec (.fmax u g e d a b fmt) s = execFmax u g e d a b fmt s := rfl
theorem exec_fcmp (u : Alu) (g : Guard) (e : Bool) (d a b : Port) (fmt : SD) (cond : FCond) (s : State):
    exec (.fcmp u g e d a b fmt cond) s = execFcmp u g e d a b fmt cond s := rfl
theorem exec_fcvt (u : Alu) (g : Guard) (e : Bool) (d a : Port) (dst : Fmt) (rm : Rnd) (src : Fmt) (s : State):
    exec (.fcvt u g e d a dst rm src) s = execFcvt u g e d a dst rm src s := rfl
theorem exec_hget (u : Alu) (g : Guard) (e : Bool) (d a : Port) (sl : BitVec 5) (s : State):
    exec (.hget u g e d a sl) s = execHget u g e d a sl s := rfl
theorem exec_hset (u : Alu) (g : Guard) (d a b : Port) (sl : BitVec 5) (s : State):
    exec (.hset u g d a b sl) s = execHset u g d a b sl s := rfl
theorem exec_hadv (u : Alu) (g : Guard) (d a b : Port) (dim : BitVec 2) (s : State):
    exec (.hadv u g d a b dim) s = execHadv u g d a b dim s := rfl
theorem exec_lds (g : Guard) (e : Bool) (d a c : Port) (sz : BitVec 2) (sx : Bool) (off : BitVec 12) (s : State):
    exec (.lds g e d a c sz sx off) s = execLds g e d a c sz sx off s := rfl
theorem exec_sts (g : Guard) (a b c : Port) (sz : BitVec 2) (off : BitVec 12) (s : State):
    exec (.sts g a b c sz off) s = execSts g a b c sz off s := rfl
theorem exec_tld (g : Guard) (d a b c : Port) (s : State):
    exec (.tld g d a b c) s = execTld g d a b c s := rfl
theorem exec_tst (g : Guard) (d a b c : Port) (s : State):
    exec (.tst g d a b c) s = execTst g d a b c s := rfl
theorem exec_tldg (g : Guard) (d a b c : Port) (s : State):
    exec (.tldg g d a b c) s = execTldg g d a b c s := rfl
theorem exec_tsts (g : Guard) (d a b c : Port) (s : State):
    exec (.tsts g d a b c) s = execTsts g d a b c s := rfl
theorem exec_atomAdd (g : Guard) (e : Bool) (d a b : Port) (sc : Scope) (lvl : Lvl) (q64 : Bool) (off : BitVec 11) (s : State):
    exec (.atomAdd g e d a b sc lvl q64 off) s = execAtomAdd g e d a b sc lvl q64 off s := rfl
theorem exec_atomInc (g : Guard) (e : Bool) (d a b : Port) (sc : Scope) (lvl : Lvl) (q64 : Bool) (off : BitVec 11) (s : State):
    exec (.atomInc g e d a b sc lvl q64 off) s = execAtomInc g e d a b sc lvl q64 off s := rfl
theorem exec_atomDec (g : Guard) (e : Bool) (d a b : Port) (sc : Scope) (lvl : Lvl) (q64 : Bool) (off : BitVec 11) (s : State):
    exec (.atomDec g e d a b sc lvl q64 off) s = execAtomDec g e d a b sc lvl q64 off s := rfl
theorem exec_atomMin (g : Guard) (e : Bool) (d a b : Port) (sc : Scope) (lvl : Lvl) (q64 uns : Bool) (off : BitVec 11) (s : State):
    exec (.atomMin g e d a b sc lvl q64 uns off) s = execAtomMin g e d a b sc lvl q64 uns off s := rfl
theorem exec_atomMax (g : Guard) (e : Bool) (d a b : Port) (sc : Scope) (lvl : Lvl) (q64 uns : Bool) (off : BitVec 11) (s : State):
    exec (.atomMax g e d a b sc lvl q64 uns off) s = execAtomMax g e d a b sc lvl q64 uns off s := rfl
theorem exec_atomAnd (g : Guard) (e : Bool) (d a b : Port) (sc : Scope) (lvl : Lvl) (q64 : Bool) (off : BitVec 11) (s : State):
    exec (.atomAnd g e d a b sc lvl q64 off) s = execAtomAnd g e d a b sc lvl q64 off s := rfl
theorem exec_atomOr (g : Guard) (e : Bool) (d a b : Port) (sc : Scope) (lvl : Lvl) (q64 : Bool) (off : BitVec 11) (s : State):
    exec (.atomOr g e d a b sc lvl q64 off) s = execAtomOr g e d a b sc lvl q64 off s := rfl
theorem exec_atomXor (g : Guard) (e : Bool) (d a b : Port) (sc : Scope) (lvl : Lvl) (q64 : Bool) (off : BitVec 11) (s : State):
    exec (.atomXor g e d a b sc lvl q64 off) s = execAtomXor g e d a b sc lvl q64 off s := rfl
theorem exec_atomXchg (g : Guard) (e : Bool) (d a b : Port) (sc : Scope) (lvl : Lvl) (q64 : Bool) (off : BitVec 11) (s : State):
    exec (.atomXchg g e d a b sc lvl q64 off) s = execAtomXchg g e d a b sc lvl q64 off s := rfl
theorem exec_atomCas (g : Guard) (e : Bool) (d a b c : Port) (sc : Scope) (lvl : Lvl) (q64 : Bool) (off : BitVec 11) (s : State):
    exec (.atomCas g e d a b c sc lvl q64 off) s = execAtomCas g e d a b c sc lvl q64 off s := rfl
theorem exec_fence (g : Guard) (sc : Scope) (s : State):
    exec (.fence g sc) s = execFence g sc s := rfl
theorem exec_bset (g : Guard) (d a b : Port) (s : State):
    exec (.bset g d a b) s = execBset g d a b s := rfl
theorem exec_bpush (g : Guard) (d a : Port) (s : State):
    exec (.bpush g d a) s = execBpush g d a s := rfl
theorem exec_bpop (g : Guard) (d a : Port) (s : State):
    exec (.bpop g d a) s = execBpop g d a s := rfl
theorem exec_bqry (g : Guard) (e : Bool) (d a : Port) (sl : BitVec 3) (s : State):
    exec (.bqry g e d a sl) s = execBqry g e d a sl s := rfl
theorem exec_vadd (g : Guard) (d a b : Port) (rm : Rnd) (rf : BitVec 6) (nl : BitVec 5) (s : State):
    exec (.vadd g d a b rm rf nl) s = execVadd g d a b rm rf nl s := rfl
theorem exec_vsub (g : Guard) (d a b : Port) (rm : Rnd) (rf : BitVec 6) (nl : BitVec 5) (s : State):
    exec (.vsub g d a b rm rf nl) s = execVsub g d a b rm rf nl s := rfl
theorem exec_vmul (g : Guard) (d a b : Port) (rm : Rnd) (rf : BitVec 6) (nl : BitVec 5) (s : State):
    exec (.vmul g d a b rm rf nl) s = execVmul g d a b rm rf nl s := rfl
theorem exec_vfma (g : Guard) (d a b c : Port) (rm : Rnd) (rf : BitVec 6) (nl : BitVec 5) (s : State):
    exec (.vfma g d a b c rm rf nl) s = execVfma g d a b c rm rf nl s := rfl
theorem exec_vmin (g : Guard) (d a b : Port) (rf : BitVec 6) (nl : BitVec 5) (s : State):
    exec (.vmin g d a b rf nl) s = execVmin g d a b rf nl s := rfl
theorem exec_vmax (g : Guard) (d a b : Port) (rf : BitVec 6) (nl : BitVec 5) (s : State):
    exec (.vmax g d a b rf nl) s = execVmax g d a b rf nl s := rfl
theorem exec_vabs (g : Guard) (d a : Port) (rf : BitVec 6) (nl : BitVec 5) (s : State):
    exec (.vabs g d a rf nl) s = execVabs g d a rf nl s := rfl
theorem exec_vneg (g : Guard) (d a : Port) (rf : BitVec 6) (nl : BitVec 5) (s : State):
    exec (.vneg g d a rf nl) s = execVneg g d a rf nl s := rfl
theorem exec_vcmp (g : Guard) (d a b : Port) (cond : VCond) (rf : BitVec 6) (nl : BitVec 5) (s : State):
    exec (.vcmp g d a b cond rf nl) s = execVcmp g d a b cond rf nl s := rfl
theorem exec_vsel (g : Guard) (d a b c : Port) (rf : BitVec 6) (nl : BitVec 5) (s : State):
    exec (.vsel g d a b c rf nl) s = execVsel g d a b c rf nl s := rfl
theorem exec_vand (g : Guard) (d a b : Port) (rf : BitVec 6) (nl : BitVec 5) (s : State):
    exec (.vand g d a b rf nl) s = execVand g d a b rf nl s := rfl
theorem exec_vor (g : Guard) (d a b : Port) (rf : BitVec 6) (nl : BitVec 5) (s : State):
    exec (.vor g d a b rf nl) s = execVor g d a b rf nl s := rfl
theorem exec_vxor (g : Guard) (d a b : Port) (rf : BitVec 6) (nl : BitVec 5) (s : State):
    exec (.vxor g d a b rf nl) s = execVxor g d a b rf nl s := rfl
theorem exec_vshl (g : Guard) (d a b : Port) (rf : BitVec 6) (nl : BitVec 5) (s : State):
    exec (.vshl g d a b rf nl) s = execVshl g d a b rf nl s := rfl
theorem exec_vshr (g : Guard) (d a b : Port) (ar : Bool) (rf : BitVec 6) (nl : BitVec 5) (s : State):
    exec (.vshr g d a b ar rf nl) s = execVshr g d a b ar rf nl s := rfl
theorem exec_vcvt (g : Guard) (d a b : Port) (fmt : Fmt) (rm : Rnd) (rf : BitVec 6) (nl : BitVec 5) (s : State):
    exec (.vcvt g d a b fmt rm rf nl) s = execVcvt g d a b fmt rm rf nl s := rfl
theorem exec_vqnt (g : Guard) (d a b : Port) (fmt : Fmt) (rm : Rnd) (rf : BitVec 6) (nl : BitVec 5) (s : State):
    exec (.vqnt g d a b fmt rm rf nl) s = execVqnt g d a b fmt rm rf nl s := rfl
theorem exec_vdq (g : Guard) (d a b c : Port) (fmt : Fmt) (rm : Rnd) (rf : BitVec 6) (nl : BitVec 5) (s : State):
    exec (.vdq g d a b c fmt rm rf nl) s = execVdq g d a b c fmt rm rf nl s := rfl
theorem exec_vaddp8 (g : Guard) (d a b : Port) (fmt : Fmt) (rf : BitVec 6) (nl : BitVec 5) (s : State):
    exec (.vaddp8 g d a b fmt rf nl) s = execVaddp8 g d a b fmt rf nl s := rfl
theorem exec_vmulp8 (g : Guard) (d a b : Port) (fmt : Fmt) (rf : BitVec 6) (nl : BitVec 5) (s : State):
    exec (.vmulp8 g d a b fmt rf nl) s = execVmulp8 g d a b fmt rf nl s := rfl
theorem exec_vbcast (g : Guard) (d a : Port) (fmt : Fmt) (rf : BitVec 6) (nl : BitVec 5) (s : State):
    exec (.vbcast g d a fmt rf nl) s = execVbcast g d a fmt rf nl s := rfl
theorem exec_vrow (g : Guard) (d a : Port) (sf rf : BitVec 6) (nl : BitVec 5) (s : State):
    exec (.vrow g d a sf rf nl) s = execVrow g d a sf rf nl s := rfl
theorem exec_vrowRel (g : Guard) (d : Port) (s : State):
    exec (.vrowRel g d) s = execVrowRel g d s := rfl
theorem exec_vperm (g : Guard) (d a b : Port) (rf : BitVec 6) (nl : BitVec 5) (s : State):
    exec (.vperm g d a b rf nl) s = execVperm g d a b rf nl s := rfl
theorem exec_vsum (g : Guard) (e : Bool) (d a : Port) (rm : Rnd) (rf : BitVec 6) (nl : BitVec 5) (s : State):
    exec (.vsum g e d a rm rf nl) s = execVsum g e d a rm rf nl s := rfl
theorem exec_vmaxr (g : Guard) (e : Bool) (d a : Port) (arg : Bool) (rf : BitVec 6) (nl : BitVec 5) (s : State):
    exec (.vmaxr g e d a arg rf nl) s = execVmaxr g e d a arg rf nl s := rfl
theorem exec_vmred (g : Guard) (d a b : Port) (cop : RedOp) (rm : Rnd) (rf : BitVec 6) (nl : BitVec 5) (s : State):
    exec (.vmred g d a b cop rm rf nl) s = execVmred g d a b cop rm rf nl s := rfl
theorem exec_vmscan (g : Guard) (d a b : Port) (cop : RedOp) (rm : Rnd) (rf : BitVec 6) (nl : BitVec 5) (s : State):
    exec (.vmscan g d a b cop rm rf nl) s = execVmscan g d a b cop rm rf nl s := rfl
theorem exec_vband (g : Guard) (d a b : Port) (rf : BitVec 6) (nl : BitVec 5) (s : State):
    exec (.vband g d a b rf nl) s = execVband g d a b rf nl s := rfl
theorem exec_vpopc (g : Guard) (d a : Port) (rf : BitVec 6) (nl : BitVec 5) (s : State):
    exec (.vpopc g d a rf nl) s = execVpopc g d a rf nl s := rfl
theorem exec_vpfx (g : Guard) (d a b : Port) (rf : BitVec 6) (nl : BitVec 5) (s : State):
    exec (.vpfx g d a b rf nl) s = execVpfx g d a b rf nl s := rfl
theorem exec_visect (g : Guard) (e : Bool) (d a b c : Port) (rf : BitVec 6) (nl : BitVec 5) (s : State):
    exec (.visect g e d a b c rf nl) s = execVisect g e d a b c rf nl s := rfl
theorem exec_vlsem (g : Guard) (d a b : Port) (rf : BitVec 6) (nl : BitVec 5) (s : State):
    exec (.vlsem g d a b rf nl) s = execVlsem g d a b rf nl s := rfl
theorem exec_exp2 (g : Guard) (d a : Port) (rf : BitVec 6) (nl : BitVec 5) (s : State):
    exec (.exp2 g d a rf nl) s = execExp2 g d a rf nl s := rfl
theorem exec_log2 (g : Guard) (d a : Port) (rf : BitVec 6) (nl : BitVec 5) (s : State):
    exec (.log2 g d a rf nl) s = execLog2 g d a rf nl s := rfl
theorem exec_rcp (g : Guard) (d a : Port) (rm : Rnd) (rf : BitVec 6) (nl : BitVec 5) (s : State):
    exec (.rcp g d a rm rf nl) s = execRcp g d a rm rf nl s := rfl
theorem exec_rsqrt (g : Guard) (d a : Port) (rm : Rnd) (rf : BitVec 6) (nl : BitVec 5) (s : State):
    exec (.rsqrt g d a rm rf nl) s = execRsqrt g d a rm rf nl s := rfl
theorem exec_sqrt (g : Guard) (d a : Port) (rm : Rnd) (rf : BitVec 6) (nl : BitVec 5) (s : State):
    exec (.sqrt g d a rm rf nl) s = execSqrt g d a rm rf nl s := rfl
theorem exec_sin (g : Guard) (d a : Port) (rf : BitVec 6) (nl : BitVec 5) (s : State):
    exec (.sin g d a rf nl) s = execSin g d a rf nl s := rfl
theorem exec_cos (g : Guard) (d a : Port) (rf : BitVec 6) (nl : BitVec 5) (s : State):
    exec (.cos g d a rf nl) s = execCos g d a rf nl s := rfl
theorem exec_tanh (g : Guard) (d a : Port) (rf : BitVec 6) (nl : BitVec 5) (s : State):
    exec (.tanh g d a rf nl) s = execTanh g d a rf nl s := rfl
theorem exec_dfrom (g : Guard) (d a : Port) (rf : BitVec 6) (s : State):
    exec (.dfrom g d a rf) s = execDfrom g d a rf s := rfl
theorem exec_dto (g : Guard) (d a : Port) (fmt : Fmt) (rm : Rnd) (rf : BitVec 6) (s : State):
    exec (.dto g d a fmt rm rf) s = execDto g d a fmt rm rf s := rfl
theorem exec_dcos (g : Guard) (e : Bool) (d a b : Port) (s : State):
    exec (.dcos g e d a b) s = execDcos g e d a b s := rfl
theorem exec_ddotw (g : Guard) (e : Bool) (d a b : Port) (s : State):
    exec (.ddotw g e d a b) s = execDdotw g e d a b s := rfl
theorem exec_dscl (g : Guard) (d a b : Port) (s : State):
    exec (.dscl g d a b) s = execDscl g d a b s := rfl
theorem exec_dadd (g : Guard) (d a b : Port) (s : State):
    exec (.dadd g d a b) s = execDadd g d a b s := rfl
theorem exec_dsub (g : Guard) (d a b : Port) (s : State):
    exec (.dsub g d a b) s = execDsub g d a b s := rfl
theorem exec_dlerp (g : Guard) (d a b c : Port) (s : State):
    exec (.dlerp g d a b c) s = execDlerp g d a b c s := rfl
theorem exec_dneg (g : Guard) (d a : Port) (s : State):
    exec (.dneg g d a) s = execDneg g d a s := rfl
theorem exec_dcmp (g : Guard) (e : Bool) (d a b c : Port) (act1 act0 : BitVec 2) (act : Bool) (cond : FCond) (s : State):
    exec (.dcmp g e d a b c act1 act0 act cond) s = execDcmp g e d a b c act1 act0 act cond s := rfl
theorem exec_dnget (g : Guard) (e : Bool) (d a : Port) (s : State):
    exec (.dnget g e d a) s = execDnget g e d a s := rfl
theorem exec_dnset (g : Guard) (d a : Port) (s : State):
    exec (.dnset g d a) s = execDnset g d a s := rfl
theorem exec_dsplit (g : Guard) (d a b : Port) (s : State):
    exec (.dsplit g d a b) s = execDsplit g d a b s := rfl
theorem exec_djoin (g : Guard) (e : Bool) (d a b : Port) (s : State):
    exec (.djoin g e d a b) s = execDjoin g e d a b s := rfl
theorem exec_mzero (g : Guard) (d : Port) (fmt : Fmt) (s : State):
    exec (.mzero g d fmt) s = execMzero g d fmt s := rfl
theorem exec_mload (g : Guard) (d a : Port) (keep : Bool) (s : State):
    exec (.mload g d a keep) s = execMload g d a keep s := rfl
theorem exec_mma (g : Guard) (d a b c f : Port) (ka kb : Bool) (depth : BitVec 8) (s : State):
    exec (.mma g d a b c f ka kb depth) s = execMma g d a b c f ka kb depth s := rfl
theorem exec_mmat (g : Guard) (d a b c f : Port) (ka kb : Bool) (depth : BitVec 8) (s : State):
    exec (.mmat g d a b c f ka kb depth) s = execMmat g d a b c f ka kb depth s := rfl
theorem exec_mmask (g : Guard) (a b : Port) (s : State):
    exec (.mmask g a b) s = execMmask g a b s := rfl
theorem exec_mdrain (g : Guard) (d a b : Port) (rm : Rnd) (s : State):
    exec (.mdrain g d a b rm) s = execMdrain g d a b rm s := rfl
theorem exec_mstep (g : Guard) (d a b c : Port) (steps1 : BitVec 5) (s : State):
    exec (.mstep g d a b c steps1) s = execMstep g d a b c steps1 s := rfl
theorem exec_mstash (g : Guard) (d a b c : Port) (s : State):
    exec (.mstash g d a b c) s = execMstash g d a b c s := rfl
theorem exec_munst (g : Guard) (d a b c : Port) (s : State):
    exec (.munst g d a b c) s = execMunst g d a b c s := rfl
theorem exec_mfmt (g : Guard) (d a b : Port) (fmt : Fmt) (rm : Rnd) (s : State):
    exec (.mfmt g d a b fmt rm) s = execMfmt g d a b fmt rm s := rfl
theorem exec_mqry (g : Guard) (e : Bool) (d a : Port) (sl : BitVec 3) (s : State):
    exec (.mqry g e d a sl) s = execMqry g e d a sl s := rfl
theorem exec_msync (g : Guard) (s : State):
    exec (.msync g) s = execMsync g s := rfl
theorem exec_tmv (g : Guard) (d a b : Port) (s : State):
    exec (.tmv g d a b) s = execTmv g d a b s := rfl
theorem exec_cpy (g : Guard) (d a b c : Port) (sc : Scope) (s : State):
    exec (.cpy g d a b c sc) s = execCpy g d a b c sc s := rfl
theorem exec_cpyl (g : Guard) (d a b : Port) (sc : Scope) (stop : Bool) (llvl : Lvl) (s : State):
    exec (.cpyl g d a b sc stop llvl) s = execCpyl g d a b sc stop llvl s := rfl
theorem exec_cpyq (g : Guard) (e : Bool) (d : Port) (sl : BitVec 2) (s : State):
    exec (.cpyq g e d sl) s = execCpyq g e d sl s := rfl
theorem exec_hqpush (g : Guard) (d a b : Port) (s : State):
    exec (.hqpush g d a b) s = execHqpush g d a b s := rfl
theorem exec_hqpop (g : Guard) (d a b : Port) (s : State):
    exec (.hqpop g d a b) s = execHqpop g d a b s := rfl
theorem exec_rcmp (g : Guard) (d a b c : Port) (sh : BitVec 5) (sth : Bool) (rsel : RowSel) (rbase : BitVec 9) (s : State):
    exec (.rcmp g d a b c sh sth rsel rbase) s = execRcmp g d a b c sh sth rsel rbase s := rfl
theorem exec_rrst (g : Guard) (d a b c : Port) (rbase : BitVec 9) (s : State):
    exec (.rrst g d a b c rbase) s = execRrst g d a b c rbase s := rfl
theorem exec_rpred (g : Guard) (d a b c : Port) (ronly : Bool) (rdef : BitVec 3) (blk : BitVec 10) (s : State):
    exec (.rpred g d a b c ronly rdef blk) s = execRpred g d a b c ronly rdef blk s := rfl
theorem exec_rset (g : Guard) (d a b c : Port) (v : BitVec 16) (s : State):
    exec (.rset g d a b c v) s = execRset g d a b c v s := rfl
theorem exec_rsetCfg (g : Guard) (a : Port) (s : State):
    exec (.rsetCfg g a) s = execRsetCfg g a s := rfl
theorem exec_rcnt (g : Guard) (e : Bool) (d a b : Port) (sl : BitVec 2) (s : State):
    exec (.rcnt g e d a b sl) s = execRcnt g e d a b sl s := rfl
theorem exec_kvapp (g : Guard) (d a b : Port) (cel : Bool) (s : State):
    exec (.kvapp g d a b cel) s = execKvapp g d a b cel s := rfl
theorem exec_kvappGap (g : Guard) (d a b c : Port) (cel : Bool) (s : State):
    exec (.kvappGap g d a b c cel) s = execKvappGap g d a b c cel s := rfl
theorem exec_kvcomAcc (g : Guard) (d a b : Port) (cel : Bool) (s : State):
    exec (.kvcomAcc g d a b cel) s = execKvcomAcc g d a b cel s := rfl
theorem exec_kvcomSet (g : Guard) (d a b : Port) (cel : Bool) (s : State):
    exec (.kvcomSet g d a b cel) s = execKvcomSet g d a b cel s := rfl
theorem exec_kvtent (g : Guard) (e : Bool) (d a : Port) (cel : Bool) (s : State):
    exec (.kvtent g e d a cel) s = execKvtent g e d a cel s := rfl
theorem exec_kvroll (g : Guard) (d a : Port) (cel : Bool) (s : State):
    exec (.kvroll g d a cel) s = execKvroll g d a cel s := rfl
theorem exec_kvrscl (g : Guard) (d a b : Port) (cel : Bool) (s : State):
    exec (.kvrscl g d a b cel) s = execKvrscl g d a b cel s := rfl
theorem exec_kvfill (g : Guard) (d a b c : Port) (cel : Bool) (s : State):
    exec (.kvfill g d a b c cel) s = execKvfill g d a b c cel s := rfl
theorem exec_attn (g : Guard) (d a b c : Port) (cel : Bool) (s : State):
    exec (.attn g d a b c cel) s = execAttn g d a b c cel s := rfl
theorem exec_shsend (g : Guard) (d a b : Port) (cel : Bool) (s : State):
    exec (.shsend g d a b cel) s = execShsend g d a b cel s := rfl
theorem exec_shrecv (g : Guard) (d a : Port) (cel : Bool) (s : State):
    exec (.shrecv g d a cel) s = execShrecv g d a cel s := rfl
theorem exec_exitn (g : Guard) (d a b : Port) (s : State):
    exec (.exitn g d a b) s = execExitn g d a b s := rfl
theorem exec_ovl (g : Guard) (d a b : Port) (frc : Bool) (ovn : BitVec 8) (oslot : BitVec 2) (s : State):
    exec (.ovl g d a b frc ovn oslot) s = execOvl g d a b frc ovn oslot s := rfl
theorem exec_opbpostArm (g : Guard) (d a b : Port) (cnt : Bool) (s : State):
    exec (.opbpostArm g d a b cnt) s = execOpbpostArm g d a b cnt s := rfl
theorem exec_opbpostDec (g : Guard) (d a b : Port) (s : State):
    exec (.opbpostDec g d a b) s = execOpbpostDec g d a b s := rfl
theorem exec_br (g : Guard) (disp : BitVec 27) (s : State):
    exec (.br g disp) s = execBr g disp s := rfl
theorem exec_brc (g : Guard) (a : Port) (cond : BrCond) (disp : BitVec 24) (s : State):
    exec (.brc g a cond disp) s = execBrc g a cond disp s := rfl
theorem exec_call (g : Guard) (d : Port) (disp : BitVec 27) (s : State):
    exec (.call g d disp) s = execCall g d disp s := rfl
theorem exec_ret (g : Guard) (a : Port) (s : State):
    exec (.ret g a) s = execRet g a s := rfl
theorem exec_jr (g : Guard) (d a : Port) (s : State):
    exec (.jr g d a) s = execJr g d a s := rfl
theorem exec_loop (g : Guard) (a : Port) (edisp : BitVec 12) (s : State):
    exec (.loop g a edisp) s = execLoop g a edisp s := rfl
theorem exec_loopl (g : Guard) (edisp : BitVec 12) (s : State):
    exec (.loopl g edisp) s = execLoopl g edisp s := rfl
theorem exec_loopx (g : Guard) (n : BitVec 3) (s : State):
    exec (.loopx g n) s = execLoopx g n s := rfl
theorem exec_fin (g : Guard) (s : State):
    exec (.fin g) s = execFin g s := rfl
theorem exec_await (g : Guard) (e : Bool) (d a b : Port) (cons : Bool) (s : State):
    exec (.await g e d a b cons) s = execAwait g e d a b cons s := rfl
theorem exec_post (g : Guard) (d a b c : Port) (sc : Scope) (rmt : Bool) (s : State):
    exec (.post g d a b c sc rmt) s = execPost g d a b c sc rmt s := rfl
theorem exec_syncd (g : Guard) (e : Bool) (d : Port) (lv : BitVec 3) (s : State):
    exec (.syncd g e d lv) s = execSyncd g e d lv s := rfl
theorem exec_yieldc (g : Guard) (e : Bool) (d a : Port) (s : State):
    exec (.yieldc g e d a) s = execYieldc g e d a s := rfl
theorem exec_waitq (g : Guard) (e : Bool) (d a : Port) (s : State):
    exec (.waitq g e d a) s = execWaitq g e d a s := rfl
theorem exec_flushy (g : Guard) (e : Bool) (d : Port) (s : State):
    exec (.flushy g e d) s = execFlushy g e d s := rfl
theorem exec_mark (g : Guard) (rel : Bool) (exp : BitVec 26) (s : State):
    exec (.mark g rel exp) s = execMark g rel exp s := rfl
theorem exec_ckpt (g : Guard) (e : Bool) (d : Port) (s : State):
    exec (.ckpt g e d) s = execCkpt g e d s := rfl
theorem exec_trap (g : Guard) (code : BitVec 16) (s : State):
    exec (.trap g code) s = execTrap g code s := rfl
theorem exec_bkpt (g : Guard) (btag : BitVec 16) (s : State):
    exec (.bkpt g btag) s = execBkpt g btag s := rfl
theorem exec_nop (g : Guard) (count : BitVec 16) (s : State):
    exec (.nop g count) s = execNop g count s := rfl
theorem exec_sysrd (g : Guard) (e : Bool) (d a : Port) (s : State):
    exec (.sysrd g e d a) s = execSysrd g e d a s := rfl
theorem exec_syswr (g : Guard) (d a : Port) (s : State):
    exec (.syswr g d a) s = execSyswr g d a s := rfl
theorem exec_eret (g : Guard) (s : State):
    exec (.eret g) s = execEret g s := rfl
theorem exec_setdmr (g : Guard) (e : Bool) (d a : Port) (rd : Bool) (s : State):
    exec (.setdmr g e d a rd) s = execSetdmr g e d a rd s := rfl
theorem exec_resultLanding (c : Nat) (s : State):
    exec (.resultLanding c) s = execResultLanding c s := rfl
theorem exec_ephemeralExpiry (c n : Nat) (s : State):
    exec (.ephemeralExpiry c n) s = execEphemeralExpiry c n s := rfl
theorem exec_bankRefresh (c : Nat) (s : State):
    exec (.bankRefresh c) s = execBankRefresh c s := rfl
theorem exec_groupWaitEnd (c : Nat) (s : State):
    exec (.groupWaitEnd c) s = execGroupWaitEnd c s := rfl
theorem exec_vectorRowStart (c : Nat) (sfu : Bool) (s : State):
    exec (.vectorRowStart c sfu) s = execVectorRowStart c sfu s := rfl
theorem exec_vectorRowLanding (c : Nat) (s : State):
    exec (.vectorRowLanding c) s = execVectorRowLanding c s := rfl
theorem exec_pairNormLanding (c : Nat) (s : State):
    exec (.pairNormLanding c) s = execPairNormLanding c s := rfl
theorem exec_pairDirectionLanding (c : Nat) (s : State):
    exec (.pairDirectionLanding c) s = execPairDirectionLanding c s := rfl
theorem exec_mxOperationStart (c : Nat) (s : State):
    exec (.mxOperationStart c) s = execMxOperationStart c s := rfl
theorem exec_mxOperationRetire (c : Nat) (s : State):
    exec (.mxOperationRetire c) s = execMxOperationRetire c s := rfl
theorem exec_mstepStepEnd (c : Nat) (s : State):
    exec (.mstepStepEnd c) s = execMstepStepEnd c s := rfl
theorem exec_munstRowsLand (c : Nat) (s : State):
    exec (.munstRowsLand c) s = execMunstRowsLand c s := rfl
theorem exec_mstashWritesComplete (c : Nat) (s : State):
    exec (.mstashWritesComplete c) s = execMstashWritesComplete c s := rfl
theorem exec_fillSlotLanded (c b n : Nat) (s : State):
    exec (.fillSlotLanded c b n) s = execFillSlotLanded c b n s := rfl
theorem exec_transferStart (c : Nat) (ce : Bool) (s : State):
    exec (.transferStart c ce) s = execTransferStart c ce s := rfl
theorem exec_transferComplete (c : Nat) (ce : Bool) (s : State):
    exec (.transferComplete c ce) s = execTransferComplete c ce s := rfl
theorem exec_storeSlotPop (c b : Nat) (s : State):
    exec (.storeSlotPop c b) s = execStoreSlotPop c b s := rfl
theorem exec_copyCommandTake (c : Nat) (s : State):
    exec (.copyCommandTake c) s = execCopyCommandTake c s := rfl
theorem exec_engineWaitEnd (c : Nat) (s : State):
    exec (.engineWaitEnd c) s = execEngineWaitEnd c s := rfl
theorem exec_copyItemComplete (c : Nat) (s : State):
    exec (.copyItemComplete c) s = execCopyItemComplete c s := rfl
theorem exec_incrementArrival (n : Nat) (s : State):
    exec (.incrementArrival n) s = execIncrementArrival n s := rfl
theorem exec_pibwinRead (c : Nat) (s : State):
    exec (.pibwinRead c) s = execPibwinRead c s := rfl
theorem exec_kwinWrite (c : Nat) (v : Word) (s : State):
    exec (.kwinWrite c v) s = execKwinWrite c v s := rfl
theorem exec_ksatWrite (c : Nat) (v : Word) (s : State):
    exec (.ksatWrite c v) s = execKsatWrite c v s := rfl
theorem exec_atomPerform (c : Nat) (s : State):
    exec (.atomPerform c) s = execAtomPerform c s := rfl
theorem exec_atomComplete (c : Nat) (s : State):
    exec (.atomComplete c) s = execAtomComplete c s := rfl
theorem exec_fenceComplete (c : Nat) (s : State):
    exec (.fenceComplete c) s = execFenceComplete c s := rfl
theorem exec_postSend (c : Nat) (s : State):
    exec (.postSend c) s = execPostSend c s := rfl
theorem exec_epochMarkerApply (j n : Nat) (s : State):
    exec (.epochMarkerApply j n) s = execEpochMarkerApply j n s := rfl
theorem exec_rowInstructionStart (c : Nat) (s : State):
    exec (.rowInstructionStart c) s = execRowInstructionStart c s := rfl
theorem exec_rowInstructionComplete (c : Nat) (s : State):
    exec (.rowInstructionComplete c) s = execRowInstructionComplete c s := rfl
theorem exec_tmRequestSend (c : Nat) (s : State):
    exec (.tmRequestSend c) s = execTmRequestSend c s := rfl
theorem exec_cellarRequestPerform (n r : Nat) (s : State):
    exec (.cellarRequestPerform n r) s = execCellarRequestPerform n r s := rfl
theorem exec_cellarRequestComplete (n r : Nat) (s : State):
    exec (.cellarRequestComplete n r) s = execCellarRequestComplete n r s := rfl
theorem exec_permitGrant (c : Nat) (hi : Bool) (s : State):
    exec (.permitGrant c hi) s = execPermitGrant c hi s := rfl
theorem exec_microBatchPerform (n r : Nat) (s : State):
    exec (.microBatchPerform n r) s = execMicroBatchPerform n r s := rfl
theorem exec_microBatchDeliver (c : Nat) (hi : Bool) (s : State):
    exec (.microBatchDeliver c hi) s = execMicroBatchDeliver c hi s := rfl
theorem exec_shstWrite (c : Nat) (v : Word) (s : State):
    exec (.shstWrite c v) s = execShstWrite c v s := rfl
theorem exec_noticeAppend (n : Nat) (s : State):
    exec (.noticeAppend n) s = execNoticeAppend n s := rfl
theorem exec_exitnAck (n : Nat) (s : State):
    exec (.exitnAck n) s = execExitnAck n s := rfl
theorem exec_hqEntryMove (c : Nat) (s : State):
    exec (.hqEntryMove c) s = execHqEntryMove c s := rfl
theorem exec_coreRelease (c : Nat) (s : State):
    exec (.coreRelease c) s = execCoreRelease c s := rfl
theorem exec_stepstWrite (c : Nat) (v : Word) (s : State):
    exec (.stepstWrite c v) s = execStepstWrite c v s := rfl
theorem exec_armingPerform (p : Nat) (s : State):
    exec (.armingPerform p) s = execArmingPerform p s := rfl
theorem exec_taskPlace (p h : Nat) (rects : List Rect) (s : State):
    exec (.taskPlace p h rects) s = execTaskPlace p h rects s := rfl
theorem exec_stepDispatch (p h c : Nat) (s : State):
    exec (.stepDispatch p h c) s = execStepDispatch p h c s := rfl
theorem exec_stepStart (c : Nat) (s : State):
    exec (.stepStart c) s = execStepStart c s := rfl
theorem exec_taskDone (p h : Nat) (s : State):
    exec (.taskDone p h) s = execTaskDone p h s := rfl
theorem exec_taskFailed (p h : Nat) (s : State):
    exec (.taskFailed p h) s = execTaskFailed p h s := rfl
theorem exec_dieCountChange (p h : Nat) (rect : Rect) (s : State):
    exec (.dieCountChange p h rect) s = execDieCountChange p h rect s := rfl
theorem exec_contextResume (c : Nat) (s : State):
    exec (.contextResume c) s = execContextResume c s := rfl
theorem exec_trapEntry (c : Nat) (s : State):
    exec (.trapEntry c) s = execTrapEntry c s := rfl
theorem exec_doubleTrap (c : Nat) (s : State):
    exec (.doubleTrap c) s = execDoubleTrap c s := rfl
theorem exec_breakpointFire (c n : Nat) (s : State):
    exec (.breakpointFire c n) s = execBreakpointFire c n s := rfl
theorem exec_preemptionLanding (c : Nat) (s : State):
    exec (.preemptionLanding c) s = execPreemptionLanding c s := rfl
theorem exec_contextSwitchDue (c : Nat) (s : State):
    exec (.contextSwitchDue c) s = execContextSwitchDue c s := rfl
theorem exec_spill (c : Nat) (s : State):
    exec (.spill c) s = execSpill c s := rfl
theorem exec_spillsp (c : Nat) (s : State):
    exec (.spillsp c) s = execSpillsp c s := rfl
theorem exec_fill (c : Nat) (s : State):
    exec (.fill c) s = execFill c s := rfl
theorem exec_fillsp (c : Nat) (s : State):
    exec (.fillsp c) s = execFillsp c s := rfl
theorem exec_swout (c : Nat) (s : State):
    exec (.swout c) s = execSwout c s := rfl
theorem exec_swin (c : Nat) (s : State):
    exec (.swin c) s = execSwin c s := rfl
theorem exec_uncorrectableError (c : Nat) (loc : ErrLoc) (s : State):
    exec (.uncorrectableError c loc) s = execUncorrectableError c loc s := rfl
theorem exec_atagWrite (c : Nat) (v : Word) (s : State):
    exec (.atagWrite c v) s = execAtagWrite c v s := rfl
theorem exec_scycWrite (c : Nat) (v : Word) (s : State):
    exec (.scycWrite c v) s = execScycWrite c v s := rfl
theorem exec_ephstWrite (c : Nat) (v : Word) (s : State):
    exec (.ephstWrite c v) s = execEphstWrite c v s := rfl
theorem exec_seqstWrite (c : Nat) (v : Word) (s : State):
    exec (.seqstWrite c v) s = execSeqstWrite c v s := rfl
theorem exec_lswinWrite (c : Nat) (v : Word) (s : State):
    exec (.lswinWrite c v) s = execLswinWrite c v s := rfl
theorem exec_istagWrite (c o : Nat) (v : Word) (s : State):
    exec (.istagWrite c o v) s = execIstagWrite c o v s := rfl
theorem exec_dsccmdWrite (c : Nat) (v : Word) (s : State):
    exec (.dsccmdWrite c v) s = execDsccmdWrite c v s := rfl
theorem exec_discardMarkDone (c : Nat) (s : State):
    exec (.discardMarkDone c) s = execDiscardMarkDone c s := rfl
theorem exec_reelwinWrite (c : Nat) (v : Word) (s : State):
    exec (.reelwinWrite c v) s = execReelwinWrite c v s := rfl
theorem exec_traceRecordWrite (c : Nat) (s : State):
    exec (.traceRecordWrite c) s = execTraceRecordWrite c s := rfl
theorem exec_replayCheckpoint (p : Nat) (s : State):
    exec (.replayCheckpoint p) s = execReplayCheckpoint p s := rfl
theorem exec_doorbellWrite (q v : Nat) (ro : Bool) (s : State):
    exec (.doorbellWrite q v ro) s = execDoorbellWrite q v ro s := rfl
theorem exec_commandFetch (q : Nat) (s : State):
    exec (.commandFetch q) s = execCommandFetch q s := rfl
theorem exec_commandFetchRetry (q : Nat) (s : State):
    exec (.commandFetchRetry q) s = execCommandFetchRetry q s := rfl
theorem exec_arm (q h cnt : Nat) (usec : Bool) (s : State):
    exec (.arm q h cnt usec) s = execArm q h cnt usec s := rfl
theorem exec_dec (q h amt : Nat) (s : State):
    exec (.dec q h amt) s = execDec q h amt s := rfl
theorem exec_inval (q p va len : Nat) (s : State):
    exec (.inval q p va len) s = execInval q p va len s := rfl
theorem exec_invalComplete (p : Nat) (s : State):
    exec (.invalComplete p) s = execInvalComplete p s := rfl
theorem exec_dbgstop (q c : Nat) (s : State):
    exec (.dbgstop q c) s = execDbgstop q c s := rfl
theorem exec_attest (q nonce report : Nat) (s : State):
    exec (.attest q nonce report) s = execAttest q nonce report s := rfl
theorem exec_psetup (q p desc : Nat) (s : State):
    exec (.psetup q p desc) s = execPsetup q p desc s := rfl
theorem exec_ptear (q p : Nat) (s : State):
    exec (.ptear q p) s = execPtear q p s := rfl
theorem exec_scrconsWrite (p : Nat) (v : Word) (s : State):
    exec (.scrconsWrite p v) s = execScrconsWrite p v s := rfl
theorem exec_stepRingAppend (p : Nat) (s : State):
    exec (.stepRingAppend p) s = execStepRingAppend p s := rfl
theorem exec_bar4Access (off : Nat) (wr : Option Byte) (s : State):
    exec (.bar4Access off wr) s = execBar4Access off wr s := rfl
theorem exec_moduleReset (stages : List StageRec) (s : State):
    exec (.moduleReset stages) s = execModuleReset stages s := rfl
theorem exec_thermalThrottle (temp watts : Nat) (s : State):
    exec (.thermalThrottle temp watts) s = execThermalThrottle temp watts s := rfl
theorem exec_thermalStop (temp : Nat) (s : State):
    exec (.thermalStop temp) s = execThermalStop temp s := rfl
theorem exec_correctableError (c : Nat) (s : State):
    exec (.correctableError c) s = execCorrectableError c s := rfl
theorem exec_qcfgWrite (q : Nat) (cpl : Bool) (v : Word) (s : State):
    exec (.qcfgWrite q cpl v) s = execQcfgWrite q cpl v s := rfl
theorem exec_replay (p n : Nat) (s : State):
    exec (.replay p n) s = execReplay p n s := rfl
theorem exec_groupDomainArrival (p h col gid : Nat) (s : State):
    exec (.groupDomainArrival p h col gid) s = execGroupDomainArrival p h col gid s := rfl
theorem exec_noticeTargetUnreachable (n : Nat) (s : State):
    exec (.noticeTargetUnreachable n) s = execNoticeTargetUnreachable n s := rfl
theorem exec_powerRemoval (s : State):
    exec (.powerRemoval) s = execPowerRemoval s := rfl

end Sys2Proof.Machine
end

