-- ==== Sys2Proof/Laws/State.lean ====
section
/-! SUPPORT. Laws/State.lean: what each update of the module leaves alone, field by field, and what a core, a context or a
partition reads as after an update. -/

namespace Sys2Proof.Machine

/-! ## Files -/

@[simp] theorem vget_vset {α : Type} {n : Nat} (v : Vector α n) (i j : Nat) (x d : α) :
    vget (vset v i x) j d = if i = j ∧ i < n then x else vget v j d := by
  simp only [vget, vset, Vector.getElem?_setIfInBounds]
  by_cases h : i = j
  · subst h
    by_cases h' : i < n <;> simp [h']
  · simp [h]

theorem vget_vmod {α : Type} {n : Nat} (v : Vector α n) (i j : Nat) (d : α) (f : α → α) :
    vget (vmod v i d f) j d = if i = j ∧ i < n then f (vget v i d) else vget v j d := by
  simp [vmod]

/-! ## Fields -/

@[simp] theorem State.setCore_power (s : State) (c : Nat) (x : Core) : (s.setCore c x).power = s.power := rfl
@[simp] theorem State.setCore_mem (s : State) (c : Nat) (x : Core) : (s.setCore c x).mem = s.mem := rfl
@[simp] theorem State.setCore_discard (s : State) (c : Nat) (x : Core) : (s.setCore c x).discard = s.discard := rfl
@[simp] theorem State.setCore_dirty (s : State) (c : Nat) (x : Core) : (s.setCore c x).dirty = s.dirty := rfl
@[simp] theorem State.setCore_xlat (s : State) (c : Nat) (x : Core) : (s.setCore c x).xlat = s.xlat := rfl
@[simp] theorem State.setCore_parts (s : State) (c : Nat) (x : Core) : (s.setCore c x).parts = s.parts := rfl
@[simp] theorem State.setCore_dies (s : State) (c : Nat) (x : Core) : (s.setCore c x).dies = s.dies := rfl
@[simp] theorem State.setCore_cellars (s : State) (c : Nat) (x : Core) : (s.setCore c x).cellars = s.cellars := rfl
@[simp] theorem State.setCore_queues (s : State) (c : Nat) (x : Core) : (s.setCore c x).queues = s.queues := rfl
@[simp] theorem State.setCore_msix (s : State) (c : Nat) (x : Core) : (s.setCore c x).msix = s.msix := rfl
@[simp] theorem State.setCore_status (s : State) (c : Nat) (x : Core) : (s.setCore c x).status = s.status := rfl
@[simp] theorem State.setCore_journal (s : State) (c : Nat) (x : Core) : (s.setCore c x).journal = s.journal := rfl
@[simp] theorem State.setCore_bar (s : State) (c : Nat) (x : Core) : (s.setCore c x).bar = s.bar := rfl
@[simp] theorem State.setCore_net (s : State) (c : Nat) (x : Core) : (s.setCore c x).net = s.net := rfl
@[simp] theorem State.setCore_notices (s : State) (c : Nat) (x : Core) : (s.setCore c x).notices = s.notices := rfl
@[simp] theorem State.setCore_modno (s : State) (c : Nat) (x : Core) : (s.setCore c x).modno = s.modno := rfl
@[simp] theorem State.setCore_nextId (s : State) (c : Nat) (x : Core) : (s.setCore c x).nextId = s.nextId := rfl
@[simp] theorem State.setCore_cur (s : State) (c : Nat) (x : Core) : (s.setCore c x).cur = s.cur := rfl
@[simp] theorem State.setCore_agenda (s : State) (c : Nat) (x : Core) : (s.setCore c x).agenda = s.agenda := rfl

@[simp] theorem State.modCore_power (s : State) (c : Nat) (f : Core → Core) : (s.modCore c f).power = s.power := rfl
@[simp] theorem State.modCore_mem (s : State) (c : Nat) (f : Core → Core) : (s.modCore c f).mem = s.mem := rfl
@[simp] theorem State.modCore_discard (s : State) (c : Nat) (f : Core → Core) : (s.modCore c f).discard = s.discard := rfl
@[simp] theorem State.modCore_dirty (s : State) (c : Nat) (f : Core → Core) : (s.modCore c f).dirty = s.dirty := rfl
@[simp] theorem State.modCore_xlat (s : State) (c : Nat) (f : Core → Core) : (s.modCore c f).xlat = s.xlat := rfl
@[simp] theorem State.modCore_parts (s : State) (c : Nat) (f : Core → Core) : (s.modCore c f).parts = s.parts := rfl
@[simp] theorem State.modCore_dies (s : State) (c : Nat) (f : Core → Core) : (s.modCore c f).dies = s.dies := rfl
@[simp] theorem State.modCore_cellars (s : State) (c : Nat) (f : Core → Core) : (s.modCore c f).cellars = s.cellars := rfl
@[simp] theorem State.modCore_queues (s : State) (c : Nat) (f : Core → Core) : (s.modCore c f).queues = s.queues := rfl
@[simp] theorem State.modCore_msix (s : State) (c : Nat) (f : Core → Core) : (s.modCore c f).msix = s.msix := rfl
@[simp] theorem State.modCore_status (s : State) (c : Nat) (f : Core → Core) : (s.modCore c f).status = s.status := rfl
@[simp] theorem State.modCore_journal (s : State) (c : Nat) (f : Core → Core) : (s.modCore c f).journal = s.journal := rfl
@[simp] theorem State.modCore_bar (s : State) (c : Nat) (f : Core → Core) : (s.modCore c f).bar = s.bar := rfl
@[simp] theorem State.modCore_net (s : State) (c : Nat) (f : Core → Core) : (s.modCore c f).net = s.net := rfl
@[simp] theorem State.modCore_notices (s : State) (c : Nat) (f : Core → Core) : (s.modCore c f).notices = s.notices := rfl
@[simp] theorem State.modCore_modno (s : State) (c : Nat) (f : Core → Core) : (s.modCore c f).modno = s.modno := rfl
@[simp] theorem State.modCore_nextId (s : State) (c : Nat) (f : Core → Core) : (s.modCore c f).nextId = s.nextId := rfl
@[simp] theorem State.modCore_cur (s : State) (c : Nat) (f : Core → Core) : (s.modCore c f).cur = s.cur := rfl
@[simp] theorem State.modCore_agenda (s : State) (c : Nat) (f : Core → Core) : (s.modCore c f).agenda = s.agenda := rfl

@[simp] theorem State.modCtx_power (s : State) (c : Nat) (f : Ctx → Ctx) : (s.modCtx c f).power = s.power := rfl
@[simp] theorem State.modCtx_mem (s : State) (c : Nat) (f : Ctx → Ctx) : (s.modCtx c f).mem = s.mem := rfl
@[simp] theorem State.modCtx_discard (s : State) (c : Nat) (f : Ctx → Ctx) : (s.modCtx c f).discard = s.discard := rfl
@[simp] theorem State.modCtx_dirty (s : State) (c : Nat) (f : Ctx → Ctx) : (s.modCtx c f).dirty = s.dirty := rfl
@[simp] theorem State.modCtx_xlat (s : State) (c : Nat) (f : Ctx → Ctx) : (s.modCtx c f).xlat = s.xlat := rfl
@[simp] theorem State.modCtx_parts (s : State) (c : Nat) (f : Ctx → Ctx) : (s.modCtx c f).parts = s.parts := rfl
@[simp] theorem State.modCtx_dies (s : State) (c : Nat) (f : Ctx → Ctx) : (s.modCtx c f).dies = s.dies := rfl
@[simp] theorem State.modCtx_cellars (s : State) (c : Nat) (f : Ctx → Ctx) : (s.modCtx c f).cellars = s.cellars := rfl
@[simp] theorem State.modCtx_queues (s : State) (c : Nat) (f : Ctx → Ctx) : (s.modCtx c f).queues = s.queues := rfl
@[simp] theorem State.modCtx_msix (s : State) (c : Nat) (f : Ctx → Ctx) : (s.modCtx c f).msix = s.msix := rfl
@[simp] theorem State.modCtx_status (s : State) (c : Nat) (f : Ctx → Ctx) : (s.modCtx c f).status = s.status := rfl
@[simp] theorem State.modCtx_journal (s : State) (c : Nat) (f : Ctx → Ctx) : (s.modCtx c f).journal = s.journal := rfl
@[simp] theorem State.modCtx_bar (s : State) (c : Nat) (f : Ctx → Ctx) : (s.modCtx c f).bar = s.bar := rfl
@[simp] theorem State.modCtx_net (s : State) (c : Nat) (f : Ctx → Ctx) : (s.modCtx c f).net = s.net := rfl
@[simp] theorem State.modCtx_notices (s : State) (c : Nat) (f : Ctx → Ctx) : (s.modCtx c f).notices = s.notices := rfl
@[simp] theorem State.modCtx_modno (s : State) (c : Nat) (f : Ctx → Ctx) : (s.modCtx c f).modno = s.modno := rfl
@[simp] theorem State.modCtx_nextId (s : State) (c : Nat) (f : Ctx → Ctx) : (s.modCtx c f).nextId = s.nextId := rfl
@[simp] theorem State.modCtx_cur (s : State) (c : Nat) (f : Ctx → Ctx) : (s.modCtx c f).cur = s.cur := rfl
@[simp] theorem State.modCtx_agenda (s : State) (c : Nat) (f : Ctx → Ctx) : (s.modCtx c f).agenda = s.agenda := rfl

@[simp] theorem State.modMe_power (s : State) (f : Core → Core) : (s.modMe f).power = s.power := rfl
@[simp] theorem State.modMe_mem (s : State) (f : Core → Core) : (s.modMe f).mem = s.mem := rfl
@[simp] theorem State.modMe_discard (s : State) (f : Core → Core) : (s.modMe f).discard = s.discard := rfl
@[simp] theorem State.modMe_dirty (s : State) (f : Core → Core) : (s.modMe f).dirty = s.dirty := rfl
@[simp] theorem State.modMe_xlat (s : State) (f : Core → Core) : (s.modMe f).xlat = s.xlat := rfl
@[simp] theorem State.modMe_parts (s : State) (f : Core → Core) : (s.modMe f).parts = s.parts := rfl
@[simp] theorem State.modMe_dies (s : State) (f : Core → Core) : (s.modMe f).dies = s.dies := rfl
@[simp] theorem State.modMe_cellars (s : State) (f : Core → Core) : (s.modMe f).cellars = s.cellars := rfl
@[simp] theorem State.modMe_queues (s : State) (f : Core → Core) : (s.modMe f).queues = s.queues := rfl
@[simp] theorem State.modMe_msix (s : State) (f : Core → Core) : (s.modMe f).msix = s.msix := rfl
@[simp] theorem State.modMe_status (s : State) (f : Core → Core) : (s.modMe f).status = s.status := rfl
@[simp] theorem State.modMe_journal (s : State) (f : Core → Core) : (s.modMe f).journal = s.journal := rfl
@[simp] theorem State.modMe_bar (s : State) (f : Core → Core) : (s.modMe f).bar = s.bar := rfl
@[simp] theorem State.modMe_net (s : State) (f : Core → Core) : (s.modMe f).net = s.net := rfl
@[simp] theorem State.modMe_notices (s : State) (f : Core → Core) : (s.modMe f).notices = s.notices := rfl
@[simp] theorem State.modMe_modno (s : State) (f : Core → Core) : (s.modMe f).modno = s.modno := rfl
@[simp] theorem State.modMe_nextId (s : State) (f : Core → Core) : (s.modMe f).nextId = s.nextId := rfl
@[simp] theorem State.modMe_cur (s : State) (f : Core → Core) : (s.modMe f).cur = s.cur := rfl
@[simp] theorem State.modMe_agenda (s : State) (f : Core → Core) : (s.modMe f).agenda = s.agenda := rfl

@[simp] theorem State.modMyCtx_power (s : State) (f : Ctx → Ctx) : (s.modMyCtx f).power = s.power := rfl
@[simp] theorem State.modMyCtx_mem (s : State) (f : Ctx → Ctx) : (s.modMyCtx f).mem = s.mem := rfl
@[simp] theorem State.modMyCtx_discard (s : State) (f : Ctx → Ctx) : (s.modMyCtx f).discard = s.discard := rfl
@[simp] theorem State.modMyCtx_dirty (s : State) (f : Ctx → Ctx) : (s.modMyCtx f).dirty = s.dirty := rfl
@[simp] theorem State.modMyCtx_xlat (s : State) (f : Ctx → Ctx) : (s.modMyCtx f).xlat = s.xlat := rfl
@[simp] theorem State.modMyCtx_parts (s : State) (f : Ctx → Ctx) : (s.modMyCtx f).parts = s.parts := rfl
@[simp] theorem State.modMyCtx_dies (s : State) (f : Ctx → Ctx) : (s.modMyCtx f).dies = s.dies := rfl
@[simp] theorem State.modMyCtx_cellars (s : State) (f : Ctx → Ctx) : (s.modMyCtx f).cellars = s.cellars := rfl
@[simp] theorem State.modMyCtx_queues (s : State) (f : Ctx → Ctx) : (s.modMyCtx f).queues = s.queues := rfl
@[simp] theorem State.modMyCtx_msix (s : State) (f : Ctx → Ctx) : (s.modMyCtx f).msix = s.msix := rfl
@[simp] theorem State.modMyCtx_status (s : State) (f : Ctx → Ctx) : (s.modMyCtx f).status = s.status := rfl
@[simp] theorem State.modMyCtx_journal (s : State) (f : Ctx → Ctx) : (s.modMyCtx f).journal = s.journal := rfl
@[simp] theorem State.modMyCtx_bar (s : State) (f : Ctx → Ctx) : (s.modMyCtx f).bar = s.bar := rfl
@[simp] theorem State.modMyCtx_net (s : State) (f : Ctx → Ctx) : (s.modMyCtx f).net = s.net := rfl
@[simp] theorem State.modMyCtx_notices (s : State) (f : Ctx → Ctx) : (s.modMyCtx f).notices = s.notices := rfl
@[simp] theorem State.modMyCtx_modno (s : State) (f : Ctx → Ctx) : (s.modMyCtx f).modno = s.modno := rfl
@[simp] theorem State.modMyCtx_nextId (s : State) (f : Ctx → Ctx) : (s.modMyCtx f).nextId = s.nextId := rfl
@[simp] theorem State.modMyCtx_cur (s : State) (f : Ctx → Ctx) : (s.modMyCtx f).cur = s.cur := rfl
@[simp] theorem State.modMyCtx_agenda (s : State) (f : Ctx → Ctx) : (s.modMyCtx f).agenda = s.agenda := rfl

@[simp] theorem State.modPart_power (s : State) (p : Nat) (f : Part → Part) : (s.modPart p f).power = s.power := rfl
@[simp] theorem State.modPart_mem (s : State) (p : Nat) (f : Part → Part) : (s.modPart p f).mem = s.mem := rfl
@[simp] theorem State.modPart_discard (s : State) (p : Nat) (f : Part → Part) : (s.modPart p f).discard = s.discard := rfl
@[simp] theorem State.modPart_dirty (s : State) (p : Nat) (f : Part → Part) : (s.modPart p f).dirty = s.dirty := rfl
@[simp] theorem State.modPart_xlat (s : State) (p : Nat) (f : Part → Part) : (s.modPart p f).xlat = s.xlat := rfl
@[simp] theorem State.modPart_cores (s : State) (p : Nat) (f : Part → Part) : (s.modPart p f).cores = s.cores := rfl
@[simp] theorem State.modPart_dies (s : State) (p : Nat) (f : Part → Part) : (s.modPart p f).dies = s.dies := rfl
@[simp] theorem State.modPart_cellars (s : State) (p : Nat) (f : Part → Part) : (s.modPart p f).cellars = s.cellars := rfl
@[simp] theorem State.modPart_queues (s : State) (p : Nat) (f : Part → Part) : (s.modPart p f).queues = s.queues := rfl
@[simp] theorem State.modPart_msix (s : State) (p : Nat) (f : Part → Part) : (s.modPart p f).msix = s.msix := rfl
@[simp] theorem State.modPart_status (s : State) (p : Nat) (f : Part → Part) : (s.modPart p f).status = s.status := rfl
@[simp] theorem State.modPart_journal (s : State) (p : Nat) (f : Part → Part) : (s.modPart p f).journal = s.journal := rfl
@[simp] theorem State.modPart_bar (s : State) (p : Nat) (f : Part → Part) : (s.modPart p f).bar = s.bar := rfl
@[simp] theorem State.modPart_net (s : State) (p : Nat) (f : Part → Part) : (s.modPart p f).net = s.net := rfl
@[simp] theorem State.modPart_notices (s : State) (p : Nat) (f : Part → Part) : (s.modPart p f).notices = s.notices := rfl
@[simp] theorem State.modPart_modno (s : State) (p : Nat) (f : Part → Part) : (s.modPart p f).modno = s.modno := rfl
@[simp] theorem State.modPart_nextId (s : State) (p : Nat) (f : Part → Part) : (s.modPart p f).nextId = s.nextId := rfl
@[simp] theorem State.modPart_cur (s : State) (p : Nat) (f : Part → Part) : (s.modPart p f).cur = s.cur := rfl
@[simp] theorem State.modPart_agenda (s : State) (p : Nat) (f : Part → Part) : (s.modPart p f).agenda = s.agenda := rfl

@[simp] theorem State.modDie_power (s : State) (d : Nat) (f : Die → Die) : (s.modDie d f).power = s.power := rfl
@[simp] theorem State.modDie_mem (s : State) (d : Nat) (f : Die → Die) : (s.modDie d f).mem = s.mem := rfl
@[simp] theorem State.modDie_discard (s : State) (d : Nat) (f : Die → Die) : (s.modDie d f).discard = s.discard := rfl
@[simp] theorem State.modDie_dirty (s : State) (d : Nat) (f : Die → Die) : (s.modDie d f).dirty = s.dirty := rfl
@[simp] theorem State.modDie_xlat (s : State) (d : Nat) (f : Die → Die) : (s.modDie d f).xlat = s.xlat := rfl
@[simp] theorem State.modDie_cores (s : State) (d : Nat) (f : Die → Die) : (s.modDie d f).cores = s.cores := rfl
@[simp] theorem State.modDie_parts (s : State) (d : Nat) (f : Die → Die) : (s.modDie d f).parts = s.parts := rfl
@[simp] theorem State.modDie_cellars (s : State) (d : Nat) (f : Die → Die) : (s.modDie d f).cellars = s.cellars := rfl
@[simp] theorem State.modDie_queues (s : State) (d : Nat) (f : Die → Die) : (s.modDie d f).queues = s.queues := rfl
@[simp] theorem State.modDie_msix (s : State) (d : Nat) (f : Die → Die) : (s.modDie d f).msix = s.msix := rfl
@[simp] theorem State.modDie_status (s : State) (d : Nat) (f : Die → Die) : (s.modDie d f).status = s.status := rfl
@[simp] theorem State.modDie_journal (s : State) (d : Nat) (f : Die → Die) : (s.modDie d f).journal = s.journal := rfl
@[simp] theorem State.modDie_bar (s : State) (d : Nat) (f : Die → Die) : (s.modDie d f).bar = s.bar := rfl
@[simp] theorem State.modDie_net (s : State) (d : Nat) (f : Die → Die) : (s.modDie d f).net = s.net := rfl
@[simp] theorem State.modDie_notices (s : State) (d : Nat) (f : Die → Die) : (s.modDie d f).notices = s.notices := rfl
@[simp] theorem State.modDie_modno (s : State) (d : Nat) (f : Die → Die) : (s.modDie d f).modno = s.modno := rfl
@[simp] theorem State.modDie_nextId (s : State) (d : Nat) (f : Die → Die) : (s.modDie d f).nextId = s.nextId := rfl
@[simp] theorem State.modDie_cur (s : State) (d : Nat) (f : Die → Die) : (s.modDie d f).cur = s.cur := rfl
@[simp] theorem State.modDie_agenda (s : State) (d : Nat) (f : Die → Die) : (s.modDie d f).agenda = s.agenda := rfl

@[simp] theorem State.modCellar_power (s : State) (n : Nat) (f : Cellar → Cellar) : (s.modCellar n f).power = s.power := rfl
@[simp] theorem State.modCellar_mem (s : State) (n : Nat) (f : Cellar → Cellar) : (s.modCellar n f).mem = s.mem := rfl
@[simp] theorem State.modCellar_discard (s : State) (n : Nat) (f : Cellar → Cellar) : (s.modCellar n f).discard = s.discard := rfl
@[simp] theorem State.modCellar_dirty (s : State) (n : Nat) (f : Cellar → Cellar) : (s.modCellar n f).dirty = s.dirty := rfl
@[simp] theorem State.modCellar_xlat (s : State) (n : Nat) (f : Cellar → Cellar) : (s.modCellar n f).xlat = s.xlat := rfl
@[simp] theorem State.modCellar_cores (s : State) (n : Nat) (f : Cellar → Cellar) : (s.modCellar n f).cores = s.cores := rfl
@[simp] theorem State.modCellar_parts (s : State) (n : Nat) (f : Cellar → Cellar) : (s.modCellar n f).parts = s.parts := rfl
@[simp] theorem State.modCellar_dies (s : State) (n : Nat) (f : Cellar → Cellar) : (s.modCellar n f).dies = s.dies := rfl
@[simp] theorem State.modCellar_queues (s : State) (n : Nat) (f : Cellar → Cellar) : (s.modCellar n f).queues = s.queues := rfl
@[simp] theorem State.modCellar_msix (s : State) (n : Nat) (f : Cellar → Cellar) : (s.modCellar n f).msix = s.msix := rfl
@[simp] theorem State.modCellar_status (s : State) (n : Nat) (f : Cellar → Cellar) : (s.modCellar n f).status = s.status := rfl
@[simp] theorem State.modCellar_journal (s : State) (n : Nat) (f : Cellar → Cellar) : (s.modCellar n f).journal = s.journal := rfl
@[simp] theorem State.modCellar_bar (s : State) (n : Nat) (f : Cellar → Cellar) : (s.modCellar n f).bar = s.bar := rfl
@[simp] theorem State.modCellar_net (s : State) (n : Nat) (f : Cellar → Cellar) : (s.modCellar n f).net = s.net := rfl
@[simp] theorem State.modCellar_notices (s : State) (n : Nat) (f : Cellar → Cellar) : (s.modCellar n f).notices = s.notices := rfl
@[simp] theorem State.modCellar_modno (s : State) (n : Nat) (f : Cellar → Cellar) : (s.modCellar n f).modno = s.modno := rfl
@[simp] theorem State.modCellar_nextId (s : State) (n : Nat) (f : Cellar → Cellar) : (s.modCellar n f).nextId = s.nextId := rfl
@[simp] theorem State.modCellar_cur (s : State) (n : Nat) (f : Cellar → Cellar) : (s.modCellar n f).cur = s.cur := rfl
@[simp] theorem State.modCellar_agenda (s : State) (n : Nat) (f : Cellar → Cellar) : (s.modCellar n f).agenda = s.agenda := rfl

@[simp] theorem State.modQueue_power (s : State) (q : Nat) (f : HostQ → HostQ) : (s.modQueue q f).power = s.power := rfl
@[simp] theorem State.modQueue_mem (s : State) (q : Nat) (f : HostQ → HostQ) : (s.modQueue q f).mem = s.mem := rfl
@[simp] theorem State.modQueue_discard (s : State) (q : Nat) (f : HostQ → HostQ) : (s.modQueue q f).discard = s.discard := rfl
@[simp] theorem State.modQueue_dirty (s : State) (q : Nat) (f : HostQ → HostQ) : (s.modQueue q f).dirty = s.dirty := rfl
@[simp] theorem State.modQueue_xlat (s : State) (q : Nat) (f : HostQ → HostQ) : (s.modQueue q f).xlat = s.xlat := rfl
@[simp] theorem State.modQueue_cores (s : State) (q : Nat) (f : HostQ → HostQ) : (s.modQueue q f).cores = s.cores := rfl
@[simp] theorem State.modQueue_parts (s : State) (q : Nat) (f : HostQ → HostQ) : (s.modQueue q f).parts = s.parts := rfl
@[simp] theorem State.modQueue_dies (s : State) (q : Nat) (f : HostQ → HostQ) : (s.modQueue q f).dies = s.dies := rfl
@[simp] theorem State.modQueue_cellars (s : State) (q : Nat) (f : HostQ → HostQ) : (s.modQueue q f).cellars = s.cellars := rfl
@[simp] theorem State.modQueue_msix (s : State) (q : Nat) (f : HostQ → HostQ) : (s.modQueue q f).msix = s.msix := rfl
@[simp] theorem State.modQueue_status (s : State) (q : Nat) (f : HostQ → HostQ) : (s.modQueue q f).status = s.status := rfl
@[simp] theorem State.modQueue_journal (s : State) (q : Nat) (f : HostQ → HostQ) : (s.modQueue q f).journal = s.journal := rfl
@[simp] theorem State.modQueue_bar (s : State) (q : Nat) (f : HostQ → HostQ) : (s.modQueue q f).bar = s.bar := rfl
@[simp] theorem State.modQueue_net (s : State) (q : Nat) (f : HostQ → HostQ) : (s.modQueue q f).net = s.net := rfl
@[simp] theorem State.modQueue_notices (s : State) (q : Nat) (f : HostQ → HostQ) : (s.modQueue q f).notices = s.notices := rfl
@[simp] theorem State.modQueue_modno (s : State) (q : Nat) (f : HostQ → HostQ) : (s.modQueue q f).modno = s.modno := rfl
@[simp] theorem State.modQueue_nextId (s : State) (q : Nat) (f : HostQ → HostQ) : (s.modQueue q f).nextId = s.nextId := rfl
@[simp] theorem State.modQueue_cur (s : State) (q : Nat) (f : HostQ → HostQ) : (s.modQueue q f).cur = s.cur := rfl
@[simp] theorem State.modQueue_agenda (s : State) (q : Nat) (f : HostQ → HostQ) : (s.modQueue q f).agenda = s.agenda := rfl

@[simp] theorem State.signal_power (s : State) (v : Nat) : (s.signal v).power = s.power := rfl
@[simp] theorem State.signal_mem (s : State) (v : Nat) : (s.signal v).mem = s.mem := rfl
@[simp] theorem State.signal_discard (s : State) (v : Nat) : (s.signal v).discard = s.discard := rfl
@[simp] theorem State.signal_dirty (s : State) (v : Nat) : (s.signal v).dirty = s.dirty := rfl
@[simp] theorem State.signal_xlat (s : State) (v : Nat) : (s.signal v).xlat = s.xlat := rfl
@[simp] theorem State.signal_cores (s : State) (v : Nat) : (s.signal v).cores = s.cores := rfl
@[simp] theorem State.signal_parts (s : State) (v : Nat) : (s.signal v).parts = s.parts := rfl
@[simp] theorem State.signal_dies (s : State) (v : Nat) : (s.signal v).dies = s.dies := rfl
@[simp] theorem State.signal_cellars (s : State) (v : Nat) : (s.signal v).cellars = s.cellars := rfl
@[simp] theorem State.signal_queues (s : State) (v : Nat) : (s.signal v).queues = s.queues := rfl
@[simp] theorem State.signal_status (s : State) (v : Nat) : (s.signal v).status = s.status := rfl
@[simp] theorem State.signal_journal (s : State) (v : Nat) : (s.signal v).journal = s.journal := rfl
@[simp] theorem State.signal_bar (s : State) (v : Nat) : (s.signal v).bar = s.bar := rfl
@[simp] theorem State.signal_net (s : State) (v : Nat) : (s.signal v).net = s.net := rfl
@[simp] theorem State.signal_notices (s : State) (v : Nat) : (s.signal v).notices = s.notices := rfl
@[simp] theorem State.signal_modno (s : State) (v : Nat) : (s.signal v).modno = s.modno := rfl
@[simp] theorem State.signal_nextId (s : State) (v : Nat) : (s.signal v).nextId = s.nextId := rfl
@[simp] theorem State.signal_cur (s : State) (v : Nat) : (s.signal v).cur = s.cur := rfl
@[simp] theorem State.signal_agenda (s : State) (v : Nat) : (s.signal v).agenda = s.agenda := rfl

@[simp] theorem State.hold_power (s : State) (c : Nat) (h : Held) : (s.hold c h).power = s.power := rfl
@[simp] theorem State.hold_mem (s : State) (c : Nat) (h : Held) : (s.hold c h).mem = s.mem := rfl
@[simp] theorem State.hold_discard (s : State) (c : Nat) (h : Held) : (s.hold c h).discard = s.discard := rfl
@[simp] theorem State.hold_dirty (s : State) (c : Nat) (h : Held) : (s.hold c h).dirty = s.dirty := rfl
@[simp] theorem State.hold_xlat (s : State) (c : Nat) (h : Held) : (s.hold c h).xlat = s.xlat := rfl
@[simp] theorem State.hold_parts (s : State) (c : Nat) (h : Held) : (s.hold c h).parts = s.parts := rfl
@[simp] theorem State.hold_dies (s : State) (c : Nat) (h : Held) : (s.hold c h).dies = s.dies := rfl
@[simp] theorem State.hold_cellars (s : State) (c : Nat) (h : Held) : (s.hold c h).cellars = s.cellars := rfl
@[simp] theorem State.hold_queues (s : State) (c : Nat) (h : Held) : (s.hold c h).queues = s.queues := rfl
@[simp] theorem State.hold_msix (s : State) (c : Nat) (h : Held) : (s.hold c h).msix = s.msix := rfl
@[simp] theorem State.hold_status (s : State) (c : Nat) (h : Held) : (s.hold c h).status = s.status := rfl
@[simp] theorem State.hold_journal (s : State) (c : Nat) (h : Held) : (s.hold c h).journal = s.journal := rfl
@[simp] theorem State.hold_bar (s : State) (c : Nat) (h : Held) : (s.hold c h).bar = s.bar := rfl
@[simp] theorem State.hold_net (s : State) (c : Nat) (h : Held) : (s.hold c h).net = s.net := rfl
@[simp] theorem State.hold_notices (s : State) (c : Nat) (h : Held) : (s.hold c h).notices = s.notices := rfl
@[simp] theorem State.hold_modno (s : State) (c : Nat) (h : Held) : (s.hold c h).modno = s.modno := rfl
@[simp] theorem State.hold_nextId (s : State) (c : Nat) (h : Held) : (s.hold c h).nextId = s.nextId := rfl
@[simp] theorem State.hold_cur (s : State) (c : Nat) (h : Held) : (s.hold c h).cur = s.cur := rfl
@[simp] theorem State.hold_agenda (s : State) (c : Nat) (h : Held) : (s.hold c h).agenda = s.agenda := rfl

@[simp] theorem State.modSeq_power (s : State) (f : Seq → Seq) : (s.modSeq f).power = s.power := rfl
@[simp] theorem State.modSeq_mem (s : State) (f : Seq → Seq) : (s.modSeq f).mem = s.mem := rfl
@[simp] theorem State.modSeq_discard (s : State) (f : Seq → Seq) : (s.modSeq f).discard = s.discard := rfl
@[simp] theorem State.modSeq_dirty (s : State) (f : Seq → Seq) : (s.modSeq f).dirty = s.dirty := rfl
@[simp] theorem State.modSeq_xlat (s : State) (f : Seq → Seq) : (s.modSeq f).xlat = s.xlat := rfl
@[simp] theorem State.modSeq_parts (s : State) (f : Seq → Seq) : (s.modSeq f).parts = s.parts := rfl
@[simp] theorem State.modSeq_dies (s : State) (f : Seq → Seq) : (s.modSeq f).dies = s.dies := rfl
@[simp] theorem State.modSeq_cellars (s : State) (f : Seq → Seq) : (s.modSeq f).cellars = s.cellars := rfl
@[simp] theorem State.modSeq_queues (s : State) (f : Seq → Seq) : (s.modSeq f).queues = s.queues := rfl
@[simp] theorem State.modSeq_msix (s : State) (f : Seq → Seq) : (s.modSeq f).msix = s.msix := rfl
@[simp] theorem State.modSeq_status (s : State) (f : Seq → Seq) : (s.modSeq f).status = s.status := rfl
@[simp] theorem State.modSeq_journal (s : State) (f : Seq → Seq) : (s.modSeq f).journal = s.journal := rfl
@[simp] theorem State.modSeq_bar (s : State) (f : Seq → Seq) : (s.modSeq f).bar = s.bar := rfl
@[simp] theorem State.modSeq_net (s : State) (f : Seq → Seq) : (s.modSeq f).net = s.net := rfl
@[simp] theorem State.modSeq_notices (s : State) (f : Seq → Seq) : (s.modSeq f).notices = s.notices := rfl
@[simp] theorem State.modSeq_modno (s : State) (f : Seq → Seq) : (s.modSeq f).modno = s.modno := rfl
@[simp] theorem State.modSeq_nextId (s : State) (f : Seq → Seq) : (s.modSeq f).nextId = s.nextId := rfl
@[simp] theorem State.modSeq_cur (s : State) (f : Seq → Seq) : (s.modSeq f).cur = s.cur := rfl
@[simp] theorem State.modSeq_agenda (s : State) (f : Seq → Seq) : (s.modSeq f).agenda = s.agenda := rfl

@[simp] theorem State.result_power (s : State) (u : Unit') (n l : Nat) (e : Bool) (d : Port) (v : Word) (f : FlagSet) : (s.result u n l e d v f).power = s.power := rfl
@[simp] theorem State.result_mem (s : State) (u : Unit') (n l : Nat) (e : Bool) (d : Port) (v : Word) (f : FlagSet) : (s.result u n l e d v f).mem = s.mem := rfl
@[simp] theorem State.result_discard (s : State) (u : Unit') (n l : Nat) (e : Bool) (d : Port) (v : Word) (f : FlagSet) : (s.result u n l e d v f).discard = s.discard := rfl
@[simp] theorem State.result_dirty (s : State) (u : Unit') (n l : Nat) (e : Bool) (d : Port) (v : Word) (f : FlagSet) : (s.result u n l e d v f).dirty = s.dirty := rfl
@[simp] theorem State.result_xlat (s : State) (u : Unit') (n l : Nat) (e : Bool) (d : Port) (v : Word) (f : FlagSet) : (s.result u n l e d v f).xlat = s.xlat := rfl
@[simp] theorem State.result_parts (s : State) (u : Unit') (n l : Nat) (e : Bool) (d : Port) (v : Word) (f : FlagSet) : (s.result u n l e d v f).parts = s.parts := rfl
@[simp] theorem State.result_dies (s : State) (u : Unit') (n l : Nat) (e : Bool) (d : Port) (v : Word) (f : FlagSet) : (s.result u n l e d v f).dies = s.dies := rfl
@[simp] theorem State.result_cellars (s : State) (u : Unit') (n l : Nat) (e : Bool) (d : Port) (v : Word) (f : FlagSet) : (s.result u n l e d v f).cellars = s.cellars := rfl
@[simp] theorem State.result_queues (s : State) (u : Unit') (n l : Nat) (e : Bool) (d : Port) (v : Word) (f : FlagSet) : (s.result u n l e d v f).queues = s.queues := rfl
@[simp] theorem State.result_msix (s : State) (u : Unit') (n l : Nat) (e : Bool) (d : Port) (v : Word) (f : FlagSet) : (s.result u n l e d v f).msix = s.msix := rfl
@[simp] theorem State.result_status (s : State) (u : Unit') (n l : Nat) (e : Bool) (d : Port) (v : Word) (f : FlagSet) : (s.result u n l e d v f).status = s.status := rfl
@[simp] theorem State.result_journal (s : State) (u : Unit') (n l : Nat) (e : Bool) (d : Port) (v : Word) (f : FlagSet) : (s.result u n l e d v f).journal = s.journal := rfl
@[simp] theorem State.result_bar (s : State) (u : Unit') (n l : Nat) (e : Bool) (d : Port) (v : Word) (f : FlagSet) : (s.result u n l e d v f).bar = s.bar := rfl
@[simp] theorem State.result_net (s : State) (u : Unit') (n l : Nat) (e : Bool) (d : Port) (v : Word) (f : FlagSet) : (s.result u n l e d v f).net = s.net := rfl
@[simp] theorem State.result_notices (s : State) (u : Unit') (n l : Nat) (e : Bool) (d : Port) (v : Word) (f : FlagSet) : (s.result u n l e d v f).notices = s.notices := rfl
@[simp] theorem State.result_modno (s : State) (u : Unit') (n l : Nat) (e : Bool) (d : Port) (v : Word) (f : FlagSet) : (s.result u n l e d v f).modno = s.modno := rfl
@[simp] theorem State.result_nextId (s : State) (u : Unit') (n l : Nat) (e : Bool) (d : Port) (v : Word) (f : FlagSet) : (s.result u n l e d v f).nextId = s.nextId := rfl
@[simp] theorem State.result_cur (s : State) (u : Unit') (n l : Nat) (e : Bool) (d : Port) (v : Word) (f : FlagSet) : (s.result u n l e d v f).cur = s.cur := rfl
@[simp] theorem State.result_agenda (s : State) (u : Unit') (n l : Nat) (e : Bool) (d : Port) (v : Word) (f : FlagSet) : (s.result u n l e d v f).agenda = s.agenda := rfl

@[simp] theorem State.launch_power (s : State) (u : Unit') (n l : Nat) (f : FlagSet) (w : List Wr) : (s.launch u n l f w).power = s.power := rfl
@[simp] theorem State.launch_mem (s : State) (u : Unit') (n l : Nat) (f : FlagSet) (w : List Wr) : (s.launch u n l f w).mem = s.mem := rfl
@[simp] theorem State.launch_discard (s : State) (u : Unit') (n l : Nat) (f : FlagSet) (w : List Wr) : (s.launch u n l f w).discard = s.discard := rfl
@[simp] theorem State.launch_dirty (s : State) (u : Unit') (n l : Nat) (f : FlagSet) (w : List Wr) : (s.launch u n l f w).dirty = s.dirty := rfl
@[simp] theorem State.launch_xlat (s : State) (u : Unit') (n l : Nat) (f : FlagSet) (w : List Wr) : (s.launch u n l f w).xlat = s.xlat := rfl
@[simp] theorem State.launch_parts (s : State) (u : Unit') (n l : Nat) (f : FlagSet) (w : List Wr) : (s.launch u n l f w).parts = s.parts := rfl
@[simp] theorem State.launch_dies (s : State) (u : Unit') (n l : Nat) (f : FlagSet) (w : List Wr) : (s.launch u n l f w).dies = s.dies := rfl
@[simp] theorem State.launch_cellars (s : State) (u : Unit') (n l : Nat) (f : FlagSet) (w : List Wr) : (s.launch u n l f w).cellars = s.cellars := rfl
@[simp] theorem State.launch_queues (s : State) (u : Unit') (n l : Nat) (f : FlagSet) (w : List Wr) : (s.launch u n l f w).queues = s.queues := rfl
@[simp] theorem State.launch_msix (s : State) (u : Unit') (n l : Nat) (f : FlagSet) (w : List Wr) : (s.launch u n l f w).msix = s.msix := rfl
@[simp] theorem State.launch_status (s : State) (u : Unit') (n l : Nat) (f : FlagSet) (w : List Wr) : (s.launch u n l f w).status = s.status := rfl
@[simp] theorem State.launch_journal (s : State) (u : Unit') (n l : Nat) (f : FlagSet) (w : List Wr) : (s.launch u n l f w).journal = s.journal := rfl
@[simp] theorem State.launch_bar (s : State) (u : Unit') (n l : Nat) (f : FlagSet) (w : List Wr) : (s.launch u n l f w).bar = s.bar := rfl
@[simp] theorem State.launch_net (s : State) (u : Unit') (n l : Nat) (f : FlagSet) (w : List Wr) : (s.launch u n l f w).net = s.net := rfl
@[simp] theorem State.launch_notices (s : State) (u : Unit') (n l : Nat) (f : FlagSet) (w : List Wr) : (s.launch u n l f w).notices = s.notices := rfl
@[simp] theorem State.launch_modno (s : State) (u : Unit') (n l : Nat) (f : FlagSet) (w : List Wr) : (s.launch u n l f w).modno = s.modno := rfl
@[simp] theorem State.launch_nextId (s : State) (u : Unit') (n l : Nat) (f : FlagSet) (w : List Wr) : (s.launch u n l f w).nextId = s.nextId := rfl
@[simp] theorem State.launch_cur (s : State) (u : Unit') (n l : Nat) (f : FlagSet) (w : List Wr) : (s.launch u n l f w).cur = s.cur := rfl
@[simp] theorem State.launch_agenda (s : State) (u : Unit') (n l : Nat) (f : FlagSet) (w : List Wr) : (s.launch u n l f w).agenda = s.agenda := rfl

/-! ## Reading back -/

@[simp] theorem State.core_setCore (s : State) (c k : Nat) (x : Core) :
    (s.setCore c x).core k = if c = k ∧ c < 256 then x else s.core k := vget_vset ..
@[simp] theorem State.core_modCore (s : State) (c k : Nat) (f : Core → Core) :
    (s.modCore c f).core k = if c = k ∧ c < 256 then f (s.core c) else s.core k := vget_vset ..
@[simp] theorem State.core_modCtx (s : State) (c k : Nat) (f : Ctx → Ctx) :
    (s.modCtx c f).core k = if c = k ∧ c < 256 then { s.core c with ctx := f (s.core c).ctx } else s.core k := vget_vset ..
@[simp] theorem State.part_modPart (s : State) (p k : Nat) (f : Part → Part) :
    (s.modPart p f).part k = if p = k ∧ p < 8 then f (s.part p) else s.part k := vget_vmod ..
@[simp] theorem State.die_modDie (s : State) (p k : Nat) (f : Die → Die) :
    (s.modDie p f).die k = if p = k ∧ p < 12 then f (s.die p) else s.die k := vget_vmod ..
@[simp] theorem State.cellar_modCellar (s : State) (p k : Nat) (f : Cellar → Cellar) :
    (s.modCellar p f).cellar k = if p = k ∧ p < 8 then f (s.cellar p) else s.cellar k := vget_vmod ..
@[simp] theorem State.queue_modQueue (s : State) (p k : Nat) (f : HostQ → HostQ) :
    (s.modQueue p f).queue k = if p = k ∧ p < 16 then f (s.queue p) else s.queue k := vget_vmod ..

theorem State.me_modMe (s : State) (f : Core → Core) (h : s.cur < 256) : (s.modMe f).me = f s.me := by
  simp [State.me, State.modMe, h]
theorem State.ctx_modMyCtx (s : State) (f : Ctx → Ctx) (h : s.cur < 256) : (s.modMyCtx f).ctx = f s.ctx := by
  simp [State.ctx, State.me, State.modMyCtx, h]

end Sys2Proof.Machine
end

