-- ==== Sys2Proof/Laws/Issue.lean ====
section
/-! SUPPORT. Laws/Issue.lean: what the issue of a slot instruction does around its effect. -/

namespace Sys2Proof.Machine

theorem State.setCore_core (s : State) (c : Nat) : s.setCore c (s.core c) = s := by
  have h : vset s.cores c (vget s.cores c Core.reset) = s.cores := by
    apply Vector.ext; intro i hi
    simp only [vset, vget, Vector.getElem_setIfInBounds]
    split
    · next h => subst h; simp [hi]
    · rfl
  cases s; simp_all [State.setCore, State.core]

theorem State.modCore_modCore (s : State) (c : Nat) (f g : Core → Core) :
    (s.modCore c f).modCore c g = s.modCore c fun x => g (f x) := by
  simp only [State.modCore, State.core_setCore]
  have h : ∀ x y, vset (vset s.cores c x) c y = vset s.cores c y := by
    intro x y; apply Vector.ext; intro i hi
    simp only [vset, Vector.getElem_setIfInBounds]; split <;> rfl
  by_cases hc : c < 256
  · simp [hc, State.setCore, h]
  · have : ∀ x, vset s.cores c x = s.cores := by
      intro x; apply Vector.ext; intro i hi
      simp only [vset, Vector.getElem_setIfInBounds]; split <;> first | omega | rfl
    simp [State.setCore, this]

theorem sameHold (t : State) (c : Nat) (o : Option Hold) (h : (t.core c).hold = o) :
    t = t.modCore c fun x => { x with hold := o, trace := (t.core c).trace } := by
  subst h; exact (State.setCore_core t c).symm

/-- Noting an expired register and ending a wait touch the hold, the trace unit and AFL of one core. -/
theorem release_afl (s : State) (c : Nat) (l : List Instr) : ∃ (t : Trace) (a : Word),
    (a = (s.core c).ctx.afl ∨ a = (s.core c).ctx.afl ||| 0x80) ∧
    release s c l = s.modCore c fun x => { x with hold := none, trace := t, ctx := { x.ctx with afl := a } } := by
  have e : ∃ a, (a = (s.core c).ctx.afl ∨ a = (s.core c).ctx.afl ||| 0x80) ∧
      noteExpired s c l = s.modCore c fun x => { x with ctx := { x.ctx with afl := a } } := by
    unfold noteExpired
    split
    · exact ⟨_, .inr rfl, rfl⟩
    · exact ⟨(s.core c).ctx.afl, .inl rfl, (State.setCore_core s c).symm⟩
  obtain ⟨a, hl, ha⟩ := e
  have h : ∀ t : State, ∃ (tr : Trace) (o : Option Hold), holdEnd t c = t.modCore c fun x => { x with hold := o, trace := tr } := by
    intro t
    simp only [holdEnd]
    cases hx : (t.core c).hold with
    | none => exact ⟨(t.core c).trace, none, sameHold t c _ hx⟩
    | some hd =>
      dsimp only
      split
      · exact ⟨(t.core c).trace, some hd, sameHold t c _ hx⟩
      · split
        · refine ⟨if (t.core c).mode = .u && (1 == 4 || (t.core c).trace.en 1) then
            (t.core c).trace.emit (traceRec (t.core c) c 2 hd.reason (t.core c).ctx.scyc (t.core c).ctx.seq.pc hd.clocks 0)
            else (t.core c).trace, some ⟨0, 0⟩, ?_⟩
          simp only [traceEmit, State.modCore_modCore]
          simp only [State.modCore]
          split <;> rfl
        · exact ⟨(t.core c).trace, some ⟨0, 0⟩, rfl⟩
  obtain ⟨tr, o, ho⟩ := h (s.modCore c fun x => { x with ctx := { x.ctx with afl := a } })
  refine ⟨tr, a, hl, ?_⟩
  simp only [release, ha, ho, State.modCore_modCore]

theorem release_eq (s : State) (c : Nat) (l : List Instr) : ∃ (t : Trace) (a : Word),
    release s c l = s.modCore c fun x => { x with hold := none, trace := t, ctx := { x.ctx with afl := a } } := by
  obtain ⟨t, a, -, h⟩ := release_afl s c l; exact ⟨t, a, h⟩

/-- The state in which an instruction acts differs from the one it issued in by the hold, the trace unit and AFL of its core. -/
theorem issued_eq (s : State) (i : Instr) : issued s i = s ∨ ∃ (t : Trace) (a : Word),
    issued s i = s.modCore s.cur fun x => { x with hold := none, trace := t, ctx := { x.ctx with afl := a } } := by
  unfold issued
  split
  · exact .inl rfl
  · exact .inr (release_eq ..)

/-- The same with what the hold, the trace unit and AFL become: AFL at most gains EX (R118). -/
theorem issued_afl (s : State) (i : Instr) : ∃ (h : Option Hold) (t : Trace) (a : Word),
    (a = s.ctx.afl ∨ a = s.ctx.afl ||| 0x80) ∧
    issued s i = s.modCore s.cur fun x => { x with hold := h, trace := t, ctx := { x.ctx with afl := a } } := by
  unfold issued
  split
  · exact ⟨s.me.hold, s.me.trace, s.ctx.afl, .inl rfl, (State.setCore_core s s.cur).symm⟩
  · obtain ⟨t, a, ha, h⟩ := release_afl s s.cur [i]
    exact ⟨none, t, a, ha, h⟩

/-- The state in which an instruction acts has the same contents but for the cores. -/
theorem issued_fields (s : State) (i : Instr) : ∃ v, issued s i = { s with cores := v } := by
  rcases issued_eq s i with h | ⟨t, a, h⟩ <;> rw [h]
  · exact ⟨s.cores, rfl⟩
  · exact ⟨_, rfl⟩

@[simp] theorem issued_cur (s : State) (i : Instr) : (issued s i).cur = s.cur := by
  obtain ⟨v, h⟩ := issued_fields s i; rw [h]
@[simp] theorem issued_nextId (s : State) (i : Instr) : (issued s i).nextId = s.nextId := by
  obtain ⟨v, h⟩ := issued_fields s i; rw [h]
@[simp] theorem issued_power (s : State) (i : Instr) : (issued s i).power = s.power := by
  obtain ⟨v, h⟩ := issued_fields s i; rw [h]
@[simp] theorem issued_mem (s : State) (i : Instr) : (issued s i).mem = s.mem := by
  obtain ⟨v, h⟩ := issued_fields s i; rw [h]
@[simp] theorem issued_discard (s : State) (i : Instr) : (issued s i).discard = s.discard := by
  obtain ⟨v, h⟩ := issued_fields s i; rw [h]
@[simp] theorem issued_parts (s : State) (i : Instr) : (issued s i).parts = s.parts := by
  obtain ⟨v, h⟩ := issued_fields s i; rw [h]
@[simp] theorem issued_dies (s : State) (i : Instr) : (issued s i).dies = s.dies := by
  obtain ⟨v, h⟩ := issued_fields s i; rw [h]

/-- The core an instruction acts on has only its hold, its trace unit and AFL changed. -/
theorem issued_core (s : State) (i : Instr) (k : Nat) : ∃ (h : Option Hold) (t : Trace) (a : Word),
    (issued s i).core k = { s.core k with hold := h, trace := t, ctx := { (s.core k).ctx with afl := a } } := by
  rcases issued_eq s i with h | ⟨t, a, h⟩ <;> rw [h]
  · exact ⟨_, _, _, rfl⟩
  · rw [State.core_modCore]
    split
    · next e => rw [← e.1]; exact ⟨_, _, _, rfl⟩
    · exact ⟨_, _, _, rfl⟩

theorem issued_ctx (s : State) (i : Instr) : ∃ a, (issued s i).ctx = { s.ctx with afl := a } := by
  obtain ⟨h, t, a, e⟩ := issued_core s i s.cur
  exact ⟨a, by simp only [State.ctx, State.me, issued_cur, e]⟩

@[simp] theorem issued_val (s : State) (i : Instr) (p : Port) : (issued s i).ctx.val p = s.ctx.val p := by
  obtain ⟨a, h⟩ := issued_ctx s i
  rw [h]; cases p <;> rfl
@[simp] theorem issued_pred (s : State) (i : Instr) (r : Nat) : (issued s i).ctx.pred r = s.ctx.pred r := by
  obtain ⟨a, h⟩ := issued_ctx s i; rw [h]; rfl
@[simp] theorem issued_guard (s : State) (i : Instr) (g : Guard) : (issued s i).ctx.guard g = s.ctx.guard g := by
  obtain ⟨a, h⟩ := issued_ctx s i; rw [h]; rfl
@[simp] theorem issued_handle (s : State) (i : Instr) (r : Nat) : (issued s i).ctx.handle r = s.ctx.handle r := by
  obtain ⟨a, h⟩ := issued_ctx s i; rw [h]; rfl
@[simp] theorem issued_seq (s : State) (i : Instr) : (issued s i).ctx.seq = s.ctx.seq := by
  obtain ⟨a, h⟩ := issued_ctx s i; rw [h]
@[simp] theorem issued_bobbin (s : State) (i : Instr) (b : Nat) : (issued s i).ctx.bobbin b = s.ctx.bobbin b := by
  obtain ⟨a, h⟩ := issued_ctx s i; rw [h]; rfl
@[simp] theorem issued_flagVal (s : State) (i : Instr) (f : Nat) : (issued s i).ctx.flagVal f = s.ctx.flagVal f := by
  obtain ⟨a, h⟩ := issued_ctx s i; rw [h]; rfl
@[simp] theorem issued_flights (s : State) (i : Instr) : (issued s i).ctx.flights = s.ctx.flights := by
  obtain ⟨a, h⟩ := issued_ctx s i; rw [h]

/-- Without power nothing issues. -/
theorem issue_noPower (i : Instr) (s : State) (e o : State → State) (h : s.power = false) : issue i s e o = .fault .noPower := by
  simp [issue, h]

/-- An instruction that issues ends in a next state: its effect where its guard is true, else what it does without one. -/
theorem issue_issues (i : Instr) (s : State) (e o : State → State) (h : Issues s i) :
    issue i s e o = .next (used (if s.ctx.guard (guardOf i) then e (issued s i) else o (issued s i))) := by
  obtain ⟨hp, hc⟩ := h
  have hu : act i e o (issued s i) = used (if s.ctx.guard (guardOf i) then e (issued s i) else o (issued s i)) := by
    simp only [act, used, issued_guard]
  rcases hc with hc | hc
  · simp only [issue, hp, hc, issued] at *
    simpa using hu
  · by_cases hm : s.me.committing = true
    · simp only [issue, hp, hm, issued] at *
      simpa using hu
    · simp only [issue, hp, hm, hc, issued] at *
      simpa using hu

/-- An instruction that acts has its effect. -/
theorem issue_acts (i : Instr) (s : State) (e o : State → State) (h : Acts s i) : issue i s e o = .next (acted s i e) := by
  rw [issue_issues i s e o h.1, h.2]; rfl

/-- An instruction with a false guard does nothing but what `off` says. -/
theorem issue_off (i : Instr) (s : State) (e o : State → State) (h : Issues s i) (g : s.ctx.guard (guardOf i) = false) :
    issue i s e o = .next (used (o (issued s i))) := by
  rw [issue_issues i s e o h, g]; rfl

/-- An event with power has its effect. -/
theorem event_power (s : State) (e : State → State) (h : s.power = true) : event s e = .next (e s) := by
  simp [event, h]
theorem event_noPower (s : State) (e : State → State) (h : s.power = false) : event s e = .fault .noPower := by
  simp [event, h]

/-- A scalar instruction of an S slot lands its result. -/
theorem alu_acts (i : Instr) (u : Alu) (l : Nat) (e : Bool) (d : Port) (f : Ctx → Word × FlagSet) (s : State) (h : Acts s i) :
    alu i u l e d f s = .next (landing s i u l e d (f (issued s i).ctx).1 (f (issued s i).ctx).2) := by
  rw [alu, issue_acts _ _ _ _ h]; rfl

end Sys2Proof.Machine
end

