-- ==== Sys2Proof/Laws/Memory.lean ====
section
/-! SUPPORT. Laws/Memory.lean: the canonical form of memory and of the map of discarded lines: what a listing reads as after a
store, and that every operation on memory keeps the form. -/

namespace Sys2Proof.Machine

/-! ## Listings -/

theorem mwf_mono {α : Type} [DecidableEq α] {d : α} {lo lo' : Nat} {m : Map α} (h : lo' ≤ lo) (w : mwf d lo m = true) : mwf d lo' m = true := by
  cases m with
  | nil => rfl
  | cons e r =>
    simp only [mwf, Bool.and_eq_true, decide_eq_true_eq] at w ⊢
    exact ⟨⟨by omega, w.1.2⟩, w.2⟩

/-- A key below every listed one reads the default. -/
theorem mget_below {α : Type} [DecidableEq α] {d : α} {k lo : Nat} {m : Map α} (h : k < lo) (w : mwf d lo m = true) : mget d k m = d := by
  induction m generalizing lo with
  | nil => rfl
  | cons e r ih =>
    simp only [mwf, Bool.and_eq_true, decide_eq_true_eq] at w
    simp only [mget, if_neg (show ¬e.1 = k by omega)]
    exact ih (by omega) w.2

/-- What a listing in its form reads as after a store. -/
theorem mget_mput {α : Type} [DecidableEq α] {d : α} {k j lo : Nat} {v : α} {m : Map α} (w : mwf d lo m = true) :
    mget d j (mput d k v m) = if j = k then v else mget d j m := by
  induction m generalizing lo with
  | nil =>
    simp only [mput]
    split
    · next h => simp [mget, h]
    · simp only [mget]
      by_cases e : k = j
      · simp [e]
      · simp [e, Ne.symm e]
  | cons e r ih =>
    obtain ⟨a, x⟩ := e
    simp only [mwf, Bool.and_eq_true, decide_eq_true_eq] at w
    have low : j ≤ a → mget d j r = d := fun h => mget_below (by omega) w.2
    simp only [mput]
    split
    · next h =>
      split
      · next hv =>
        split
        · next e => subst e; simp only [mget, if_neg (show ¬a = j by omega)]; rw [low (by omega), hv]
        · rfl
      · simp only [mget]
        by_cases e : k = j
        · simp [e]
        · simp [e, Ne.symm e]
    · next h =>
      split
      · next h' =>
        subst h'
        by_cases e : k = j
        · subst e
          split
          · next hv => simp [low (Nat.le_refl _), hv]
          · simp [mget]
        · split <;> simp [mget, e, Ne.symm e]
      · next h' =>
        simp only [mget, ih w.2]
        by_cases e : a = j
        · simp [e, show ¬j = k by omega]
        · simp [e]

/-- A store keeps the form. -/
theorem mwf_mput {α : Type} [DecidableEq α] {d : α} {k lo : Nat} {v : α} {m : Map α} (h : lo ≤ k) (w : mwf d lo m = true) :
    mwf d lo (mput d k v m) = true := by
  induction m generalizing lo with
  | nil => simp only [mput]; split <;> simp_all [mwf]
  | cons e r ih =>
    obtain ⟨a, x⟩ := e
    simp only [mwf, Bool.and_eq_true, decide_eq_true_eq] at w
    simp only [mput]
    split
    · split
      · simp only [mwf, Bool.and_eq_true, decide_eq_true_eq]; exact w
      · next hv => simp only [mwf, Bool.and_eq_true, decide_eq_true_eq]; exact ⟨⟨h, hv⟩, ⟨by omega, w.1.2⟩, w.2⟩
    · split
      · next e =>
        subst e
        split
        · exact mwf_mono (by omega) w.2
        · next hv => simp only [mwf, Bool.and_eq_true, decide_eq_true_eq]; exact ⟨⟨h, hv⟩, w.2⟩
      · simp only [mwf, Bool.and_eq_true, decide_eq_true_eq]
        exact ⟨w.1, ih (by omega) w.2⟩

/-- Leaving entries out keeps the form. -/
theorem mwf_filter {α : Type} [DecidableEq α] {d : α} {lo : Nat} {m : Map α} (p : Nat × α → Bool) (w : mwf d lo m = true) :
    mwf d lo (m.filter p) = true := by
  induction m generalizing lo with
  | nil => rfl
  | cons e r ih =>
    simp only [mwf, Bool.and_eq_true, decide_eq_true_eq] at w
    simp only [List.filter_cons]
    split
    · simp only [mwf, Bool.and_eq_true, decide_eq_true_eq]; exact ⟨w.1, ih w.2⟩
    · exact mwf_mono (by omega) (ih w.2)

theorem mwf_foldl_mput {α : Type} [DecidableEq α] {d : α} (l : Map α) {m : Map α} (w : mwf d 0 m = true) :
    mwf d 0 (l.foldl (fun m e => mput d e.1 e.2 m) m) = true := by
  induction l generalizing m with
  | nil => exact w
  | cons e r ih => exact ih (mwf_mput (Nat.zero_le _) w)

theorem putBytes_wf (l : List Byte) {m : List Host.Cell} {a : Nat} (w : Memory.wf m = true) : Memory.wf (putBytes m a l) = true := by
  induction l generalizing m a with
  | nil => exact w
  | cons b r ih => exact ih (mwf_mput (Nat.zero_le _) w)

theorem mergeMem_wf (l : List Host.Cell) {m : List Host.Cell} (w : Memory.wf m = true) : Memory.wf (mergeMem m l) = true :=
  mwf_foldl_mput l w

/-! ## The module's memory -/

theorem State.memOk_iff (s : State) : s.memOk = true ↔ Memory.wf s.mem = true ∧ mwf false 0 s.discard = true := by
  simp [State.memOk]

/-- The form depends on memory and the map of discarded lines alone. -/
theorem State.memOk_of_eq {s t : State} (hm : t.mem = s.mem) (hd : t.discard = s.discard) (h : s.memOk = true) : t.memOk = true := by
  simp only [State.memOk, hm, hd]; exact h

theorem undiscard_memOk {s : State} (line : Nat) (h : s.memOk = true) : (undiscard s line).memOk = true := by
  simp only [undiscard]
  split
  · rw [State.memOk_iff] at h ⊢
    generalize rep 0#8 64 = l
    have a := putBytes_wf l (a := line * 64) h.1
    have b := mwf_mput (k := line) (v := false) (Nat.zero_le _) h.2
    exact ⟨a, b⟩
  · exact h

theorem writeByte_memOk {s : State} (sp : Space) (a : Nat) (b : Byte) (h : s.memOk = true) : (writeByte s sp a b).memOk = true := by
  have u := undiscard_memOk (physAddr s sp a / 64) h
  rw [State.memOk_iff] at u ⊢
  exact ⟨mwf_mput (Nat.zero_le _) u.1, u.2⟩

theorem writeBytes_memOk (l : List Byte) {s : State} (sp : Space) (a : Nat) (h : s.memOk = true) : (writeBytes s sp a l).memOk = true := by
  induction l generalizing s a with
  | nil => exact h
  | cons b r ih => exact ih _ (writeByte_memOk sp a b h)

theorem writeNat_memOk {s : State} (sp : Space) (a n v : Nat) (h : s.memOk = true) : (writeNat s sp a n v).memOk = true :=
  writeBytes_memOk _ sp a h

theorem noteUndo_same (l : List Nat) (s : State) (c id : Nat) :
    (noteUndo s c id l).mem = s.mem ∧ (noteUndo s c id l).discard = s.discard := by
  induction l generalizing s with
  | nil => exact ⟨rfl, rfl⟩
  | cons a r ih =>
    simp only [noteUndo]
    refine ⟨(ih _).1.trans ?_, (ih _).2.trans ?_⟩ <;> · split <;> first | rfl | (split; rfl; split <;> rfl)

theorem noteSig_same (s : State) (c id : Nat) (sp : Space) (a : Nat) (l : List Byte) :
    (noteSig s c id sp a l).mem = s.mem ∧ (noteSig s c id sp a l).discard = s.discard := by
  simp only [noteSig]
  split
  · split <;> exact ⟨rfl, rfl⟩
  · exact ⟨rfl, rfl⟩

theorem writeOwn_memOk {s : State} (c id a : Nat) (l : List Byte) (h : s.memOk = true) : (writeOwn s c id a l).memOk = true := by
  apply writeBytes_memOk
  exact State.memOk_of_eq ((noteSig_same _ _ _ _ _ _).1.trans (noteUndo_same _ _ _ _).1)
    ((noteSig_same _ _ _ _ _ _).2.trans (noteUndo_same _ _ _ _).2) h

theorem discardLines_memOk (n : Nat) {s : State} (sp : Space) (i : Nat) (h : s.memOk = true) : (discardLines sp i s n).memOk = true := by
  induction n generalizing s i with
  | zero => exact h
  | succ n ih =>
    simp only [discardLines]
    split
    · exact h
    · refine ih _ ?_
      rw [State.memOk_iff] at h ⊢
      exact ⟨h.1, mwf_mput (Nat.zero_le _) h.2⟩

theorem moduleReset_memOk {s : State} (l : List StageRec) (h : s.memOk = true) : (moduleReset s l).memOk = true := by
  rw [State.memOk_iff] at h ⊢
  exact ⟨mwf_filter _ h.1, rfl⟩

theorem powerRemoval_memOk {s : State} (h : s.memOk = true) : (powerRemoval s).memOk = true := by
  rw [State.memOk_iff] at h ⊢
  exact ⟨mwf_filter _ h.1, rfl⟩

/-! ## Reading -/

theorem readBytes_length (n : Nat) (s : State) (sp : Space) (a : Nat) : (readBytes s sp a n).length = n := by
  induction n generalizing a with
  | zero => rfl
  | succ n ih => simp [readBytes, ih]

theorem readBytes_add (m n : Nat) (s : State) (sp : Space) (a : Nat) :
    readBytes s sp a (m + n) = readBytes s sp a m ++ readBytes s sp (a + m) n := by
  induction m generalizing a with
  | zero => simp [readBytes]
  | succ m ih =>
    rw [show m + 1 + n = (m + n) + 1 by omega]
    simp only [readBytes, ih, List.cons_append]
    rw [show a + 1 + m = a + (m + 1) by omega]

theorem leNat_append (l r : List Byte) : leNat (l ++ r) = leNat l + 256 ^ l.length * leNat r := by
  induction l with
  | nil => simp [leNat]
  | cons b l ih => simp only [List.cons_append, leNat, ih, List.length_cons, Nat.pow_succ, Nat.mul_add, Nat.add_assoc]; rw [← Nat.mul_assoc, Nat.mul_comm 256 (256 ^ l.length)]

/-- A run of bytes that nothing discards or lists reads 0. -/
theorem readBytes_pa {s : State} (n a : Nat) (hd : s.discard = []) :
    readBytes s .pa a n = (List.range n).map fun i => mget 0#8 (a + i) s.mem := by
  have b : ∀ a, readByte s .pa a = mget 0#8 a s.mem := by
    intro a
    have : physAddr s .pa a = a := by simp [physAddr, Space.base]; omega
    simp [readByte, this, hd, mget]
  induction n generalizing a with
  | zero => rfl
  | succ n ih =>
    rw [List.range_succ_eq_map]
    simp only [readBytes, b, ih, List.map_cons, List.map_map, Nat.add_zero, List.cons.injEq, true_and]
    apply List.map_congr_left
    intro i _
    simp only [Function.comp, Nat.succ_eq_add_one]
    rw [show a + 1 + i = a + (i + 1) by omega]

end Sys2Proof.Machine
end

