-- ==== Sys2Proof/Tests/Slice0.lean ====
section
/-! SUPPORT. Tests/Slice0.lean: the model's own tests: what WellFormed and the decoder refuse, the spec's worked examples, and
for each statement with hypotheses states and operands that meet them. Each expected value is the spec's, or worked out by hand
from the rule the test names. -/

namespace Sys2Proof.Tests

open Sys2Proof Sys2Proof.Machine

set_option Elab.async false

/-! ## Small states -/

def g : Guard := .always
/-- A guard on p1, which is false in the states here. -/
def gFalse : Guard := ⟨false, 1⟩
/-- State.reset with core 0 changed. -/
def on0 (f : Core → Core) : State := { State.reset with cores := vset State.reset.cores 0 (f Core.reset) }
def onCtx (f : Ctx → Ctx) : State := on0 fun x => { x with act := .running, ctx := f x.ctx }
/-- Core 0 runs a group whose checks have passed. -/
def committing : State := on0 fun x => { x with act := .running, committing := true }
/-- Core 0 runs, between groups, in schedule cycle 1. -/
def alone : State := onCtx fun x => { x with scyc := 1 }

theorem acts (i : Instr) (h : guardOf i = .always) : Acts committing i :=
  ⟨⟨rfl, .inl (by decide +kernel)⟩, by rw [h]; decide +kernel⟩

/-- An operation of core 0. -/
def opOf (i : Instr) : Op :=
  { id := 0, ins := i, core := 0, part := 0, ctag := 0, pc := 0, scyc := 0, cflog := 0, smode := false, spwcl := 0, spwdi := 0
    a := 0, b := 0, c := 0, f := 0, ha := 0, hb := 0, hc := 0, slot := 0, phase := .queued, idx := 0, val := 0, data := []
    fails := 0, afl := 0, orig := none, mute := false, tag := .void, dead := false, err := none }

/-- Partition 0 owns pseudo-channel 0 and cluster 0, and its tables map the first gigabyte onto that channel (R241): the root's
first entry at 0x1000 names the table at 0x2000, whose first entry is a writable leaf. Its operator block table has one block, at 0;
its step ring has 64 records. -/
def desc0 : BitVec 8192 := (1 <<< 64) ||| (1 <<< 384) ||| (0x1000 <<< 1088) ||| (1 <<< 1216) ||| (6 <<< 1344)
def mapped (f : Core → Core) : State :=
  { on0 f with
    parts := vset State.reset.parts 0 { Part.empty with set := true, desc := desc0 }
    mem := [(0x1000, 1), (0x1001, 0x20), (0x2000, 7)] }
/-! ## Decoding (R28, R35, R37 to R40, R46 to R53)

One word for each slot instruction, written out from the spec's encoding of it with the stop bit set: the decoder reads the
instruction from it, at its position, and the encoder writes that word. -/

/-- The word at this position decodes to the instruction, and the instruction encodes to the word there. -/
def reads (e : Nat × Nat × Instr) : Bool :=
  decide (decodeTableWord 512 (e.2.1 <<< (64 * e.1)) = some e.2.2) && decide (encodeSlot true e.2.2 = some (e.1, BitVec.ofNat 64 e.2.1))
/-- Class S: R47, R126 to R135. -/
theorem test_decode_S1 : ([
    (0, 0x80804943A8000000, .add .sa0 g false (.s 9) (.s 40) (.p 5)),
    (1, 0x81804B1BD4000000, .sub .sa1 g true (.s 9) (.byp 3) (.l 2)),
    (0, 0x82004943D0000000, .mul .sa0 g false (.s 9) (.s 40) (.l 2)),
    (1, 0x82804B1BAC000000, .mulh .sa1 g true (.s 9) (.byp 3) (.p 5)),
    (0, 0x83004943D0000000, .mulhu .sa0 g false (.s 9) (.s 40) (.l 2)),
    (1, 0x83804B1BD4000000, .div .sa1 g true (.s 9) (.byp 3) (.l 2)),
    (0, 0x84004943A8000000, .divu .sa0 g false (.s 9) (.s 40) (.p 5)),
    (1, 0x84804B1BD4000000, .rem .sa1 g true (.s 9) (.byp 3) (.l 2)),
    (0, 0x85004943D0000000, .remu .sa0 g false (.s 9) (.s 40) (.l 2)),
    (1, 0x88004B1BAC000000, .and .sa1 g true (.s 9) (.byp 3) (.p 5)),
    (0, 0x88804943D0000000, .andn .sa0 g false (.s 9) (.s 40) (.l 2)),
    (1, 0x89004B1BD4000000, .or .sa1 g true (.s 9) (.byp 3) (.l 2)),
    (0, 0x89804943A8000000, .xor .sa0 g false (.s 9) (.s 40) (.p 5)),
    (1, 0x8A004B1BD4000000, .shl .sa1 g true (.s 9) (.byp 3) (.l 2)),
    (0, 0x8A804943D0000000, .shr .sa0 g false (.s 9) (.s 40) (.l 2)),
    (1, 0x8B004B1BAC000000, .sar .sa1 g true (.s 9) (.byp 3) (.p 5)),
    (0, 0x8B804943D0000000, .rol .sa0 g false (.s 9) (.s 40) (.l 2)),
    (1, 0x8C004B1BD4000000, .min .sa1 g true (.s 9) (.byp 3) (.l 2)),
    (0, 0x8C804943A8000000, .max .sa0 g false (.s 9) (.s 40) (.p 5)),
    (1, 0x8D004B1BD4000000, .minu .sa1 g true (.s 9) (.byp 3) (.l 2)),
    (0, 0x8D804943D0000000, .maxu .sa0 g false (.s 9) (.s 40) (.l 2)),
    (1, 0x815BFBF005FFFFF0, .addi .sa1 ⟨true, 3⟩ .z .lc 0x5FFFFF0),
    (0, 0x900303F800000000, .clz .sa0 g false (.byp 0) .z),
    (0, 0x908303F800000000, .ctz .sa0 g false (.byp 0) .z)] : List _).all reads = true := by decide +kernel
theorem test_decode_S2 : ([
    (0, 0x910303F800000000, .popc .sa0 g false (.byp 0) .z),
    (0, 0x918303F800000000, .brev .sa0 g false (.byp 0) .z),
    (0, 0x950303F800000000, .mov .sa0 g false (.byp 0) .z),
    (0, 0x9201F80804001468, .ext .sa0 g true (.s 63) (.s 1) true 17 40),
    (0, 0x9281F0081000020F, .ins .sa0 g false (.s 62) (.s 1) (.s 2) 8 15),
    (0, 0x9300182028180000, .sel .sa0 g false (.s 3) (.s 4) (.s 5) (.s 6)),
    (0, 0x9383B82028000008, .cmp .sa0 g false (.p 7) (.s 4) (.s 5) .gtu),
    (0, 0x9400180007FFFFFF, .li .sa0 g (.s 3) 0x7FFFFFF),
    (0, 0x9480501589ABCDEF, .lih .sa0 g (.s 10) 0x1589ABCDEF),
    (0, 0x9853982000000000, .pset .sa0 ⟨true, 2⟩ (.p 3) (.s 4)),
    (1, 0x98839BA3A800000B, .plog .sa1 g (.p 3) (.p 4) (.p 5) 0xB),
    (0, 0xA000182338005800, .fadd .sa0 g false (.s 3) (.s 4) (.byp 7) .d .rdn),
    (0, 0xA080182338005800, .fsub .sa0 g false (.s 3) (.s 4) (.byp 7) .d .rdn),
    (0, 0xA100182338005800, .fmul .sa0 g false (.s 3) (.s 4) (.byp 7) .d .rdn),
    (0, 0xA200182338005800, .fdiv .sa0 g false (.s 3) (.s 4) (.byp 7) .d .rdn),
    (0, 0xA180182028180800, .ffma .sa0 g false (.s 3) (.s 4) (.s 5) (.s 6) .s .rtz),
    (0, 0xA280182000005000, .fsqrt .sa0 g false (.s 3) (.s 4) .d .rup),
    (0, 0xA300182028004000, .fmin .sa0 g false (.s 3) (.s 4) (.s 5) .d),
    (0, 0xA380182028000000, .fmax .sa0 g false (.s 3) (.s 4) (.s 5) .s),
    (0, 0xA403882028004006, .fcmp .sa0 g false (.p 1) (.s 4) (.s 5) .d .un),
    (0, 0xA480182000018980, .fcvt .sa0 g false (.s 3) (.s 4) .i32 .rtz .bf16),
    (0, 0xA8001AF800000012, .hget .sa0 g false (.s 3) (.h 31) 18),
    (1, 0xA8820A1018000007, .hset .sa1 g (.h 1) (.h 2) (.s 3) 7),
    (0, 0xA9020A1018000002, .hadv .sa0 g (.h 1) (.h 2) (.s 3) 2)] : List _).all reads = true := by decide +kernel
/-- Class M: R48, R197, R229, R233, R256, R258. -/
theorem test_decode_M : ([
    (2, 0x8083100800085FFC, .lds g false (.byp 2) (.s 1) (.s 2) 2 true 0xFFC),
    (2, 0x8100000849FC6010, .sts g (.s 1) (.s 9) .z 3 0x010),
    (2, 0x84059A1043140000, .tld g (.b 3) (.h 2) (.s 8) (.k 5)),
    (2, 0x84860A1042FC0000, .tst g (.k 1) (.h 2) (.s 8) (.b 15)),
    (2, 0x85059A1041FC0000, .tldg g (.b 3) (.h 2) (.s 8) .z),
    (2, 0x8583FA1042C00000, .tsts g .z (.h 2) (.s 8) (.b 0)),
    (2, 0x88005020280237F8, .atomAdd g false (.s 10) (.s 4) (.s 5) .system .cluster true 0x7F8),
    (2, 0x88805020280237F8, .atomInc g false (.s 10) (.s 4) (.s 5) .system .cluster true 0x7F8),
    (2, 0x89005020280237F8, .atomDec g false (.s 10) (.s 4) (.s 5) .system .cluster true 0x7F8),
    (2, 0x8980502028023FF8, .atomMin g false (.s 10) (.s 4) (.s 5) .system .cluster true true 0x7F8),
    (2, 0x8A00502028023FF8, .atomMax g false (.s 10) (.s 4) (.s 5) .system .cluster true true 0x7F8),
    (2, 0x8A805020280237F8, .atomAnd g false (.s 10) (.s 4) (.s 5) .system .cluster true 0x7F8),
    (2, 0x8B005020280237F8, .atomOr g false (.s 10) (.s 4) (.s 5) .system .cluster true 0x7F8),
    (2, 0x8B805020280237F8, .atomXor g false (.s 10) (.s 4) (.s 5) .system .cluster true 0x7F8),
    (2, 0x8C005020280237F8, .atomXchg g false (.s 10) (.s 4) (.s 5) .system .cluster true 0x7F8),
    (2, 0x8C8050202C196008, .atomCas g true (.s 10) (.s 4) (.s 5) (.s 6) .die .hbm false 8),
    (2, 0x8E00000000018000, .fence g .module),
    (2, 0x9005C80810000000, .bset g (.b 9) (.s 1) (.s 2)),
    (2, 0x9085C80800000000, .bpush g (.b 9) (.s 1)),
    (2, 0x9105C80800000000, .bpop g (.b 9) (.s 1)),
    (2, 0x91804D8800000003, .bqry g false (.s 9) (.b 1) 3)] : List _).all reads = true := by decide +kernel
/-- Class V: R49, R145 to R165. -/
theorem test_decode_V1 : ([
    (3, 0x8084140008001124, .vadd g (.tile 2) (.tile 0) (.s 1) .rup 9 4),
    (3, 0x8104140008001124, .vsub g (.tile 2) (.tile 0) (.s 1) .rup 9 4),
    (3, 0x8184140008001124, .vmul g (.tile 2) (.tile 0) (.s 1) .rup 9 4),
    (3, 0x820414040A0C0124, .vfma g (.tile 2) (.tile 0) (.tile 1) (.tile 3) .rne 9 4),
    (3, 0x828414040800013F, .vmin g (.tile 2) (.tile 0) (.tile 1) 9 31),
    (3, 0x830414040800013F, .vmax g (.tile 2) (.tile 0) (.tile 1) 9 31),
    (3, 0x880414040800013F, .vand g (.tile 2) (.tile 0) (.tile 1) 9 31),
    (3, 0x888414040800013F, .vor g (.tile 2) (.tile 0) (.tile 1) 9 31),
    (3, 0x890414040800013F, .vxor g (.tile 2) (.tile 0) (.tile 1) 9 31),
    (3, 0x898414040800013F, .vshl g (.tile 2) (.tile 0) (.tile 1) 9 31),
    (3, 0x838413F800000124, .vabs g (.tile 2) .z 9 4),
    (3, 0x840413F800000124, .vneg g (.tile 2) .z 9 4),
    (3, 0x8484140408028124, .vcmp g (.tile 2) (.tile 0) (.tile 1) .gtu 9 4),
    (3, 0x8504140409FC0124, .vsel g (.tile 2) (.tile 0) (.tile 1) .z 9 4),
    (3, 0x8A04140038004124, .vshr g (.tile 2) (.tile 0) (.s 7) true 9 4),
    (3, 0x8C04140038016124, .vcvt g (.tile 2) (.tile 0) (.s 7) .e5m2 .sr 9 4),
    (3, 0x8C84140438028924, .vqnt g (.tile 2) (.tile 0) (.tile 7) .g4 .rtz 9 4)] : List _).all reads = true := by decide +kernel
theorem test_decode_V2 : ([
    (3, 0x8D041403F80DC124, .vdq g (.tile 2) (.tile 0) .z (.s 3) .i8 .rne 9 4),
    (3, 0x8E04140408010124, .vaddp8 g (.tile 2) (.tile 0) (.tile 1) .e4m3 9 4),
    (3, 0x8E84140408010124, .vmulp8 g (.tile 2) (.tile 0) (.tile 1) .e4m3 9 4),
    (3, 0x900410280000C124, .vbcast g (.tile 2) (.s 5) .bf16 9 4),
    (3, 0x908414080000A124, .vrow g (.tile 2) (.tile 1) 20 9 4),
    (3, 0x9084100000020000, .vrowRel g (.tile 2)),
    (3, 0x9104140408000124, .vperm g (.tile 2) (.tile 0) (.tile 1) 9 4),
    (3, 0x9400140004001924, .vsum g true (.s 2) (.tile 0) .rdn 9 4),
    (3, 0x94831C0000004124, .vmaxr g false (.byp 3) (.tile 0) true 9 4),
    (3, 0x9504140408008124, .vmred g (.tile 2) (.tile 0) (.tile 1) .max .rne 9 4),
    (3, 0x9584140408008124, .vmscan g (.tile 2) (.tile 0) (.tile 1) .max .rne 9 4),
    (3, 0x9804140408000124, .vband g (.tile 2) (.tile 0) (.tile 1) 9 4),
    (3, 0x9884140000000124, .vpopc g (.tile 2) (.tile 0) 9 4),
    (3, 0x9904140008000124, .vpfx g (.tile 2) (.tile 0) (.s 1) 9 4),
    (3, 0x9983FC04080C0124, .visect g false .z (.tile 0) (.tile 1) (.s 3) 9 4),
    (3, 0x9C04140408000103, .vlsem g (.tile 2) (.tile 0) (.tile 1) 8 3)] : List _).all reads = true := by decide +kernel
/-- Class D: R50, R166, R177. -/
theorem test_decode_D : ([
    (4, 0x80848C08000007C0, .dfrom g (.d 1) (.tile 1) 62),
    (4, 0x81040C880000CFE0, .dto g (.tile 1) (.d 1) .bf16 .rtz 63),
    (4, 0x81804C8488000000, .dcos g false (.s 9) (.d 0) (.d 1)),
    (4, 0x8203248488000000, .ddotw g false (.byp 4) (.d 0) (.d 1)),
    (4, 0x8284948008000000, .dscl g (.d 2) (.d 0) (.s 1)),
    (4, 0x8304948488000000, .dadd g (.d 2) (.d 0) (.d 1)),
    (4, 0x8384948488000000, .dsub g (.d 2) (.d 0) (.d 1)),
    (4, 0x8404948489900000, .dlerp g (.d 2) (.d 0) (.d 1) (.byp 4)),
    (4, 0x848494F800000000, .dneg g (.d 2) (.d 15)),
    (4, 0x8500648488100115, .dcmp g false (.s 12) (.d 0) (.d 1) (.s 4) 0 2 true .ge),
    (4, 0x85804D7804000000, .dnget g true (.s 9) (.nrm 15)),
    (4, 0x8605184800000000, .dnset g (.nrm 3) (.s 9)),
    (4, 0x86849CA528000000, .dsplit g (.d 3) (.d 4) (.nrm 5)),
    (4, 0x87001D23F8000000, .djoin g false (.s 3) (.nrm 4) .z),
    (4, 0xA0040C1000000124, .exp2 g (.tile 1) (.tile 2) 9 4),
    (4, 0xA0840C1000000124, .log2 g (.tile 1) (.tile 2) 9 4),
    (4, 0xA1040C1000001924, .rcp g (.tile 1) (.tile 2) .rdn 9 4),
    (4, 0xA1840C1000001924, .rsqrt g (.tile 1) (.tile 2) .rdn 9 4),
    (4, 0xA2040C1000001924, .sqrt g (.tile 1) (.tile 2) .rdn 9 4),
    (4, 0xA2840C1000000124, .sin g (.tile 1) (.tile 2) 9 4),
    (4, 0xA3040C1000000124, .cos g (.tile 1) (.tile 2) 9 4),
    (4, 0xA3840C1000000124, .tanh g (.tile 1) (.tile 2) 9 4)] : List _).all reads = true := by decide +kernel
/-- Class X: R51, R203. -/
theorem test_decode_X : ([
    (5, 0x8084180000018000, .mzero g (.tile 3) .i32),
    (5, 0x81041DA000000001, .mload g (.tile 3) (.b 4) true),
    (5, 0x81840585880C127F, .mma g (.tile 0) (.b 0) (.b 1) (.s 3) (.s 4) true false 0x7F),
    (5, 0x8204058589FD9905, .mmat g (.tile 0) (.b 0) (.b 1) .z (.byp 6) false true 5),
    (5, 0x8280000810000000, .mmask g (.s 1) (.s 2)),
    (5, 0x8305AC0810000800, .mdrain g (.b 5) (.tile 1) (.s 2) .rtz),
    (5, 0x83840D959AD0001F, .mstep g (.tile 1) (.b 2) (.b 3) (.b 4) 31),
    (5, 0x84061C0810100000, .mstash g (.k 3) (.tile 1) (.s 2) (.s 4)),
    (5, 0x8483FC0810100000, .munst g .z (.tile 1) (.s 2) (.s 4)),
    (5, 0x85040C1018019000, .mfmt g (.tile 1) (.tile 2) (.s 3) .i32 .rup),
    (5, 0x85800C1000000000, .mqry g false (.s 1) (.tile 2) 0),
    (5, 0x8600000000000000, .msync g)] : List _).all reads = true := by decide +kernel
/-- Class T: R52 and the entries it names. -/
theorem test_decode_T1 : ([
    (6, 0x80860A1598000000, .tmv g (.k 1) (.h 2) (.b 3)),
    (6, 0x81060A1598100020, .cpy g (.k 1) (.h 2) (.b 3) (.s 4) .system),
    (6, 0x818608101800000F, .cpyl g (.k 1) (.s 2) (.s 3) .cluster true .hbm),
    (6, 0x8200180004000002, .cpyq g true (.s 3) 2),
    (6, 0x8406081018000000, .hqpush g (.k 1) (.s 2) (.s 3)),
    (6, 0x8483F81018000000, .hqpop g .z (.s 2) (.s 3)),
    (6, 0x88061A222828D9FF, .rcmp g (.k 3) (.h 4) (.h 5) (.s 10) 6 true .cont 0x1FF),
    (6, 0x88861A2228280003, .rrst g (.k 3) (.h 4) (.h 5) (.s 10) 3),
    (6, 0x89061820282837FF, .rpred g (.k 3) (.s 4) (.s 5) (.s 10) true 5 0x3FF),
    (6, 0x8986182028288402, .rset g (.k 3) (.s 4) (.s 5) (.s 10) 0x8402),
    (6, 0x8980002000020000, .rsetCfg g (.s 4)),
    (6, 0x8A00182028000001, .rcnt g false (.s 3) (.s 4) (.s 5) 1),
    (6, 0x9006121840000001, .kvapp g (.k 2) (.h 3) (.s 8) true),
    (6, 0x9006101840240002, .kvappGap g (.k 2) (.s 3) (.s 8) (.s 9) false)] : List _).all reads = true := by decide +kernel
theorem test_decode_T2 : ([
    (6, 0x9086101840000001, .kvcomAcc g (.k 2) (.s 3) (.s 8) true),
    (6, 0x9086101840000005, .kvcomSet g (.k 2) (.s 3) (.s 8) true),
    (6, 0x9100101800000000, .kvtent g false (.s 2) (.s 3) false),
    (6, 0x9186101800000001, .kvroll g (.k 2) (.s 3) true),
    (6, 0x9206101820000001, .kvrscl g (.k 2) (.s 3) (.s 4) true),
    (6, 0x9286101820140000, .kvfill g (.k 2) (.s 3) (.s 4) (.s 5) false),
    (6, 0x9806121820140001, .attn g (.k 2) (.h 3) (.s 4) (.s 5) true),
    (6, 0x9886121820000000, .shsend g (.k 2) (.h 3) (.s 4) false),
    (6, 0x9906101800000001, .shrecv g (.k 2) (.s 3) true),
    (6, 0x9986101820000000, .exitn g (.k 2) (.s 3) (.s 4)),
    (6, 0x9C06101B08000696, .ovl g (.k 2) (.s 3) (.byp 1) true 0xA5 2),
    (6, 0x9C86101800000000, .opbpostArm g (.k 2) (.s 3) (.s 0) false),
    (6, 0x9C86101820000001, .opbpostDec g (.k 2) (.s 3) (.s 4))] : List _).all reads = true := by decide +kernel
/-- Class C: R53 and the entries it names. -/
theorem test_decode_C : ([
    (7, 0x8080000007FFFFFE, .br g 0x7FFFFFE),
    (7, 0x810003F005FFFFF0, .brc g .lc .gtz 0xFFFFF0),
    (7, 0x8180F8000000000C, .call g (.s 31) 12),
    (7, 0x8200031000000000, .ret g (.byp 2)),
    (7, 0x8283F83800000000, .jr g .z (.s 7)),
    (7, 0x8400003800000FFF, .loop g (.s 7) 0xFFF),
    (7, 0x8480000000000005, .loopl g 5),
    (7, 0x8500000000000006, .loopx g 6),
    (7, 0x85C8000000000000, .fin ⟨true, 1⟩),
    (7, 0x88000E101C000001, .await g true (.s 1) (.k 2) (.s 3) true),
    (7, 0x8886101820140014, .post g (.k 2) (.s 3) (.s 4) (.s 5) .die true),
    (7, 0x8900080000000004, .syncd g false (.s 1) 4),
    (7, 0x8980081000000000, .yieldc g false (.s 1) (.s 2)),
    (7, 0x8A00081000000000, .waitq g false (.s 1) (.s 2)),
    (7, 0x8A83F80000000000, .flushy g false .z),
    (7, 0x8C00000006000001, .mark g true 0x2000001),
    (7, 0x8C83480000000000, .ckpt g false (.byp 9)),
    (7, 0x8D0000000000FFFF, .trap g 0xFFFF),
    (7, 0x8D80000000000007, .bkpt g 7),
    (7, 0x8E00000000000009, .nop g 9),
    (7, 0x90000FF800000000, .sysrd g false (.s 1) (.sys 31)),
    (7, 0x9087B00800000000, .syswr g (.sys 22) (.s 1)),
    (7, 0x9100000000000000, .eret g),
    (7, 0x9180080000000001, .setdmr g false (.s 1) (.s 0) true)] : List _).all reads = true := by decide +kernel
/-! ## Well-formedness: for each check a term it alone refuses -/

/-- Ports of a kind the field does not take (R126, R133, R146, R177, R203 and the entries' own rows). -/
theorem test_wf_scalar_ports : ([.add .sa0 ⟨true, 0⟩ false (.s 1) (.s 2) (.s 3), .add .sa0 g false (.s 1) (.tile 2) (.s 3),
    .fadd .sa0 g false (.s 1) (.p 2) (.s 3) .s .rne, .add .sa0 g false (.byp 1) (.s 2) (.s 3), .add .sa0 g true .z (.s 2) (.s 3),
    .pset .sa0 g (.p 0) (.s 1), .plog .sa0 g (.p 1) (.s 0) (.p 0) 6, .hget .sa0 g false (.s 1) (.s 2) 0, .sysrd g false (.s 1) (.s 2),
    .call g (.byp 0) 0, .ret g .z, .jr g (.p 1) (.s 1), .loop g (.p 1) 0, .await g false (.s 1) (.s 2) (.s 3) false,
    .tld g (.b 1) (.h 1) (.s 1) (.b 2), .tmv g (.k 1) (.h 1) (.s 1)] : List Instr).all (fun i => !i.wf) = true := by decide +kernel
theorem test_wf_other_ports : ([.vadd g (.s 1) (.s 1) (.s 1) .rne 0 0, .vadd g (.tile 1) (.p 1) (.s 1) .rne 0 0,
    .vqnt g (.tile 1) (.tile 2) (.s 1) .i8 .rne 0 0, .dfrom g (.tile 1) (.tile 2) 0, .dcos g false (.s 1) (.d 1) (.nrm 1),
    .dnget g false (.s 1) (.s 2), .dsplit g (.d 1) (.d 2) (.h 1), .dcmp g false (.s 1) (.tile 1) .z (.s 2) 0 0 false .eq,
    .dcmp g false (.s 1) (.d 1) (.s 1) (.s 2) 0 0 false .eq, .dcmp g false (.s 1) (.d 1) .z (.s 2) 0 0 false .eq,
    .mload g (.tile 1) (.h 1) false, .mstash g (.s 1) (.tile 1) (.s 1) (.s 1), .mqry g false (.s 1) (.h 1) 0,
    .mqry g false (.s 1) (.s 0) 0, .mqry g false (.s 1) (.tile 1) 1] : List Instr).all (fun i => !i.wf) = true := by decide +kernel
/-- Modifiers the spec reserves, and fields that must hold 0. -/
theorem test_wf_fields : ([.ext .sa0 g false (.s 1) (.s 2) false 32 32, .hget .sa0 g false (.s 1) (.h 2) 19,
    .bqry g false (.s 1) (.b 1) 4, .vadd g (.tile 1) (.s 1) (.s 1) .rne 60 4, .vrow g (.tile 1) (.tile 2) 60 0 4,
    .vlsem g (.tile 1) (.tile 2) (.tile 3) 1 1, .vlsem g (.tile 1) (.tile 2) (.tile 3) 0 2,
    .vmred g (.tile 1) (.tile 2) (.tile 3) .min .rtz 0 0, .dcmp g false (.p 1) (.d 1) (.d 2) (.s 2) 0 0 true .eq,
    .dcmp g false (.s 1) (.d 1) (.d 2) (.s 2) 1 0 false .eq, .mqry g false (.s 1) (.s 0) 3, .rcnt g false (.s 1) (.s 1) (.s 0) 3,
    .rcnt g false (.s 1) (.s 1) (.s 2) 2, .rcmp g (.k 1) (.h 1) (.h 2) (.s 1) 1 false .live 0, .opbpostArm g (.k 1) (.s 1) (.s 2) false,
    .post g (.k 1) (.s 1) (.s 2) (.s 0) .core false, .syncd g false (.s 1) 5, .setdmr g false (.s 1) (.s 1) true] :
    List Instr).all (fun i => !i.wf) = true := by decide +kernel
/-- Formats and rounding codes an entry does not take. -/
theorem test_wf_formats : ([.fadd .sa0 g false (.s 1) (.s 2) (.s 3) .s .sr, .fcvt .sa0 g false (.s 1) (.s 2) .e4m3 .rne .f32,
    .fcvt .sa0 g false (.s 1) (.s 2) .i32 .rne .i32, .vcvt g (.tile 1) (.tile 2) .z .i8 .rne 0 0, .vcvt g (.tile 1) (.tile 2) .z .f16 .sr 0 0,
    .vqnt g (.tile 1) (.tile 2) .z .f32 .rne 0 0, .vqnt g (.tile 1) (.tile 2) .z .g8 .rne 0 0,
    .vdq g (.tile 1) (.tile 2) .z .z .bf16 .rne 0 0, .vdq g (.tile 1) (.tile 2) (.tile 3) .z .i8 .rne 0 0,
    .vaddp8 g (.tile 1) (.tile 2) (.tile 3) .f16 0 0, .vbcast g (.tile 1) (.s 1) .f16 0 0, .dto g (.tile 1) (.d 1) .f16 .rne 0,
    .dto g (.tile 1) (.d 1) .f32 .rne 63, .mzero g (.tile 1) .bf16] : List Instr).all (fun i => !i.wf) = true := by decide +kernel
/-- Cores, cellars, dies, partitions and queues that do not exist. -/
theorem test_wf_events : ([.resultLanding 256, .cellarRequestPerform 8 0, .epochMarkerApply 12 0, .armingPerform 8, .commandFetch 16,
    .stepDispatch 0 0 256, .dbgstop 16 0, .inval 0 8 0 0] : List Instr).all (fun i => !i.wf) = true := by decide +kernel

/-! ## Slots the decoder refuses, by name (R29, R30, R36, R37, R45) -/

/-- The reasons found in the word at a position. -/
def refused (pos w : Nat) : List DecErr :=
  match decodeSlot pos (BitVec.ofNat 64 w) with
  | .bad why _ => why
  | _ => []
theorem test_refused_opcode : (∀ pos < 8, refused pos (0xFF <<< 55) = [.unassigned]) ∧ refused 2 (0x1A <<< 55) = [.unassigned] ∧ (refused 0 (8 <<< 51)).contains .never = true ∧
    refused 4 (0x0F <<< 55) = [.unassigned] := by decide +kernel
/-- ADD s4, s4, s5 with one field changed: G = 0b1000; X[0]; the never guard and that bit; A an accumulator tile; A a reserved port;
A a system register; FADD.s with format code 2 and with rounding code 4; a zero opcode with another field set; BRC with condition 6. -/
theorem test_refused_fields : refused 0 (0x0080202028000000 ||| (8 <<< 51)) = [.never] ∧ refused 0 (0x0080202028000000 ||| 1) = [.malformed] ∧
    refused 0 (0x0080202028000000 ||| (8 <<< 51) ||| 1) = [.never, .malformed] ∧ refused 0 (0x0080200028000000 ||| (0x80 <<< 35)) = [.portKind] ∧
    refused 0 (0x0080200028000000 ||| (0x6A <<< 35)) = [.portReserved] ∧ refused 0 (0x0080200028000000 ||| (0xE0 <<< 35)) = [.portSystem] ∧
    refused 0 ((0x40 <<< 55) ||| (2 <<< 14)) = [.format] ∧ refused 0 ((0x40 <<< 55) ||| (4 <<< 11)) = [.malformed] ∧
    refused 0 1 = [.malformed] ∧ refused 7 ((2 <<< 55) ||| (6 <<< 24)) = [.malformed] := by decide +kernel
theorem test_empty_slots : decodeSlot 3 0 = .nop ∧ decodeSlot 3 (1 <<< 63) = .stopOnly := by decide +kernel
/-! ## The spec's worked examples and tables -/

/-- The result of a core's instruction on a register file, as its write in flight. -/
def result (i : Instr) (f : Ctx → Ctx) : Option (List Wr) :=
  match exec i (on0 fun x => { x with act := .running, committing := true, ctx := f x.ctx }) with
  | .next t => some ((t.core 0).ctx.flights.flatMap (·.wrs))
  | _ => none
/-- The scalar register `n` set. -/
def sset (n : Nat) (v : Word) (x : Ctx) : Ctx := { x with s := vset x.s n v }
/-- The core of row 5, column 6 of C-die 2 (R4). -/
theorem test_place : dieOf 174 = 2 ∧ clusterOf 174 = 21 := by decide
/-- The table of R127 at B = 0 and at −2^63 ÷ −1. -/
theorem test_div_corners : result (.div .sa0 g false (.s 9) (.s 1) .z) (sset 1 7) = some [.scalar 9 0xFFFFFFFFFFFFFFFF, .byp 0 0xFFFFFFFFFFFFFFFF] ∧
    result (.rem .sa0 g false (.s 9) (.s 1) .z) (sset 1 7) = some [.scalar 9 7, .byp 0 7] ∧
    result (.div .sa0 g false (.s 9) (.s 1) (.s 2)) (fun x => sset 1 0x8000000000000000 (sset 2 0xFFFFFFFFFFFFFFFF x)) =
      some [.scalar 9 0x8000000000000000, .byp 0 0x8000000000000000] ∧
    result (.rem .sa0 g false (.s 9) (.s 1) (.s 2)) (fun x => sset 1 0x8000000000000000 (sset 2 0xFFFFFFFFFFFFFFFF x)) =
      some [.scalar 9 0, .byp 0 0] := by decide +kernel
/-- −1 < 1 signed and not unsigned (R131). -/
theorem test_cmp : result (.cmp .sa0 g false (.p 3) (.s 4) (.s 5) .lt) (fun x => sset 4 0xFFFFFFFFFFFFFFFF (sset 5 1 x)) = some [.pred 3 true, .byp 0 1] ∧
    result (.cmp .sa0 g false (.p 3) (.s 4) (.s 5) .ltu) (fun x => sset 4 0xFFFFFFFFFFFFFFFF (sset 5 1 x)) = some [.pred 3 false, .byp 0 0] := by
  decide +kernel
/-- LI and LIH build 0x1234_5678_9ABC_DEF0 (R132): its low 27 bits, then its high 37. -/
theorem test_li_lih : result (.li .sa0 g (.s 10) 0x2BCDEF0) id = some [.scalar 10 0x2BCDEF0, .byp 0 0x2BCDEF0] ∧
    result (.lih .sa0 g (.s 10) 0x2468ACF13) (sset 10 0x2BCDEF0) = some [.scalar 10 0x123456789ABCDEF0, .byp 0 0x123456789ABCDEF0] := by
  decide +kernel
theorem test_shift_mod_64 : result (.sar .sa1 g false (.s 9) (.s 1) (.s 2)) (fun x => sset 1 0x8000000000000000 (sset 2 65 x)) =
    some [.scalar 9 0xC000000000000000, .byp 1 0xC000000000000000] := by decide +kernel
/-- BF16 just above 1.0 (R75): 1.0 + 2^−9 draws 0x3F80 or 0x3F81, with NX. -/
theorem test_sr_neighbours : ∀ c < 4, let y := srRound .bf16 false 0 (BitVec.ofNat 64 c) 0 (.fin false 513 (-9));
    (y.1 = 0x3F80 ∨ y.1 = 0x3F81) ∧ y.2 = fNX := by decide +kernel
/-- VADDP8 of R86. -/
theorem test_fp8_lane : fp8Lane .e4m3 false false false 0x007F387E 0x80383860 = (0x007F407F, fIV ||| fOF ||| fNX) ∧
    fp8Lane .e4m3 false true false 0x007F387E 0x80383860 = (0x007F407E, fIV ||| fOF ||| fNX) := by decide +kernel
/-- Renormalisation of R91. -/
theorem test_renorm : let p := renorm (0x1000 :: 0x1000 :: rep 0 126) (.fin false 0 0);
    p.d.take 3 = [0x2D41, 0x2D41, 0] ∧ p.n = 0xBFC00000 := by decide +kernel
/-- DFROM, DCOS and DSCL of the example that closes 06_directional_registers.md. -/
theorem test_directions : let l := fun (x y : Int) => FV.ofInt x 0 :: FV.ofInt y 0 :: rep (.fin false 0 0) 126;
    (dfromOf (l 3 4)).d.take 3 = [0x2666, 0x3333, 0] ∧ (dfromOf (l 3 4)).n = 0x40149A78 ∧ (dfromOf (l 3 4)).f = fNX := by decide +kernel
theorem test_dcos : dcosOf (packDir (0x2666 :: 0x3333 :: rep 0 126)) (packDir (0x3333 :: 0x2666 :: rep 0 126)) = (0x3F75BF0A, fNX) := by
  decide +kernel
/-- VMRED.add and VMSCAN.add of R162. -/
def keyRow : Row := packRow 32 ([5, 3, 5, 7, 3, 5, 7, 2] ++ rep 2 56)
def valRow : Row := packRow 32 ([0x3F800000, 0x40000000, 0x3F000000, 0x40800000, 0x3E800000, 0x40400000, 0xC0800000, 0x41000000] ++ rep 0 56)
theorem test_vmred : let r := redRow false .fp32 .add .rne keyRow valRow;
    lanes r.1 32 9 = [0x40900000, 0x40100000, 0, 0, 0, 0, 0, 0x41000000, 0] ∧ r.2 = (0x8B, 0#8) := by decide +kernel
theorem test_vmscan : let r := redRow true .fp32 .add .rne keyRow valRow;
    lanes r.1 32 9 = [0x3F800000, 0x40000000, 0x3FC00000, 0x40800000, 0x40100000, 0x40900000, 0, 0x41000000, 0x41000000] ∧ r.2 = (0x8B, 0#8) := by
  decide +kernel
/-- Banks of R219's example: the line index modulo 32. -/
theorem test_hash : ([0, 0x800, 0x1000, 0x1800].map fun o => hashLine 0x0010000000000001 5 10 (o / 64) % 32) = [0, 1, 2, 3] := by decide +kernel
/-- ATOM.inc of R260: 7 becomes 8 under the bound 16, and 16 stays. -/
theorem test_atom_inc : let i : Instr := .atomInc g false (.s 10) (.s 4) (.s 5) .die .die false 64;
    atomNew i 32 7 16 0 = 8 ∧ atomNew i 32 16 16 0 = 16 ∧ atomNew i 32 0xFFFFFFFF 0 0 = 0 := by decide
/-- The predicate pass of 11_token_rows.md, row by row: word before, score, word after; `none` where RPRED leaves the word. -/
theorem test_rpred : ([(0x0001, 0x3F000000, some 0x0002), (0x0001, 0x3F7D70A4, some 0x8402), (0x4001, 0, some 0x0002),
    (0x0001, 0x3F733333, some 0x4002), (0x8001, 0, none), (0x0001, 0x3DCCCCCD, some 0xD002), (0x0001, 0x7FC00000, some 0x0002),
    (0xD001, 0, some 0xC802), (0xC801, 0, some 0x0002), (0x0001, 0xBFC00000, some 0x8402), (0x0001, 0x3F780000, some 0x8402),
    (0x0001, 0x3F666666, some 0x0002), (0x0001, 0x3F70A3D7, some 0x4002)] : List (Nat × Nat × Option Nat)).all
    (fun e => predWord 0x3BC03B803400BC00 false 2 2 e.1 e.2.1 == e.2.2) = true := by decide +kernel
/-- RCNT.mask at L = 10 (R308), of the same example. -/
theorem test_rcnt_mask : rcntWord State.reset { opOf (.rcnt g false (.s 12) (.s 13) (.s 0) 2) with a := 0x000300020001000A } 2 =
    0xFFFFFFFFFFFFFC00 := by decide +kernel
/-- The two triples of R330: scores 3.0 and 1.0. -/
theorem test_attn_weights : let t := (attnTriple [0x40400000, 0x3F800000] [rep (FV.ofInt 1 0) 128, rep (FV.ofInt 2 0) 128]).1;
    t.m = 0x40400000 ∧ t.s = 0x3FA00000 ∧ t.a.take 1 = [0x3FC00000] := by decide +kernel
/-- The INT8 tokens of R331 and their rescale by 1. -/
theorem test_kv_codes : scaleExp .i8 1 [FV.ofInt 5 0, unpack .f32 0xC0533333] = -3 ∧
    kvCode .i8 0x3E000000 (FV.ofInt 5 0) = (0x28, false, 0#8) ∧ kvCode .i8 0x3E000000 (unpack .f32 0xC0533333) = (0xE6, false, fNX) ∧
    (kvCode .i8 0x3E000000 (FV.ofInt 20 0)).1 = 0x7F ∧ (kvCode .i8 0x3E000000 (FV.ofInt 20 0)).2.1 = true ∧
    (recode .i8 1 0x28).1 = 0x14 ∧ (recode .i8 1 0xE6).1 = 0xF3 ∧ (recode .i8 1 0x7F).1 = 0x40 := by decide +kernel
/-- A NaN code becomes the canonical one (R69). -/
theorem test_recode_nan : (recode .e4m3 1 0xFF).1 = 0x7F ∧ (recode .e5m2 1 0xFD).1 = 0x7E := by decide +kernel
/-- The example row of R168. -/
theorem test_sin_cos_pi : (sinCos false 0x40490FDB).1 = 0xB3BBBD2E ∧ (sinCos true 0x40490FDB).1 = 0xBF800000 := by decide +kernel
/-- SHA-384 of "abc", as its standard lists it (R430). -/
theorem test_sha384 : sha384 [0x61, 0x62, 0x63] =
    0xCB00753F45A35E8BB5A03D699AC65007272C32AB0EDED1631A8B605A43FF5BED8086072BA1E7CC2358BAECA134C825A7 := by decide +kernel
/-- The two illegal bundles of R45: cause 0x01A and 0x01C, mask 0x03 each. -/
def held (l : List Nat) : Option (Nat × BitVec 8) :=
  let w := (l.zip (upFrom 0 8)).foldl (fun a e => a ||| (BitVec.ofNat 512 e.1 <<< (64 * e.2))) (0 : BundleWord)
  (lowest (encodingFound (fetchSlots w) ++ groupsFound Core.reset (groupsOf (fetchSlots w) []))).map fun h => (h.cause, h.mask)
theorem test_illegal_bundles :
    held [(1 <<< 55) ||| (1 <<< 43) ||| (2 <<< 35) ||| (3 <<< 27), (1 <<< 63) ||| (1 <<< 55) ||| (4 <<< 43) ||| (1 <<< 35) ||| (5 <<< 27)] = some (0x01A, 3) ∧
    held [(1 <<< 55) ||| (16 <<< 35) ||| (17 <<< 27), (1 <<< 63) ||| (1 <<< 55) ||| (1 <<< 43) ||| (18 <<< 35) ||| (19 <<< 27)] = some (0x01C, 3) ∧
    held [(1 <<< 63) ||| (1 <<< 55) ||| (1 <<< 43) ||| (2 <<< 35) ||| (3 <<< 27), (1 <<< 63) ||| (1 <<< 55) ||| (4 <<< 43) ||| (1 <<< 35) ||| (5 <<< 27)] = none ∧
    held [0] = some (0x018, 0) ∧ held [(1 <<< 55) ||| (1 <<< 43) ||| (2 <<< 35) ||| (3 <<< 27)] = some (0x019, 1) := by decide +kernel
/-! ## Witnesses: encoding, steps and issue -/

theorem witness_DecodeOfEncode :
    (Instr.add .sa0 g false (.s 4) (.s 4) (.s 5)).wf = true ∧
    encodeSlot true (.add .sa0 g false (.s 4) (.s 4) (.s 5)) = some (0, 0x8080202028000000) ∧
    (slotInfo (.add .sa0 g false (.s 4) (.s 4) (.s 5))).isSome = true := by decide +kernel
theorem witness_DecodedIsWellFormed :
    decodeSlot 0 0x0080202028000000 = .ok (.add .sa0 g false (.s 4) (.s 4) (.s 5)) := by decide +kernel

/-- `add s4, s4, s5 !` placed on a core in its schedule cycle 1. -/
def placed (x : Nat) : State := State.reset.withFetchWord 512 x
def stepHyps (s : State) (p : Nat) (i : Instr) : Bool :=
  let x := s.core s.cur
  let w := BitVec.ofNat 512 (readNat s (.store s.cur) x.ctx.seq.pc 64)
  s.power && s.agenda.isEmpty && !s.status.hot && x.act == .running && x.reportDue.isNone && !breakpointHit x 0 && !breakpointHit x 1 &&
    !x.eretReq && x.ctx.nops == 0 && !x.ctx.seq.halt && x.ckpt.isNone && x.yielding.isNone && x.ctx.seq.grp == 0 && x.ctx.seq.fetched.isNone && decodeSlot p (slotOf w p) == .ok i &&
    (slotOf w p).getLsbD 63 && (upFrom 0 8).all fun q => q == p || decodeSlot q (slotOf w q) == .nop
theorem witness_StepRunsDecodedInstruction_go :
    stepHyps (placed 0x8080202028000000) 0 (.add .sa0 g false (.s 4) (.s 4) (.s 5)) = true ∧
    fetchVerdict (fetchBundle (placed 0x8080202028000000) 0) 0 = .go := by decide +kernel
/-- `eret !` in U mode: the privilege cause. -/
theorem witness_StepRunsDecodedInstruction_trap :
    stepHyps (placed (0x9100000000000000 * 2 ^ 448)) 7 (.eret g) = true ∧
    fetchVerdict (fetchBundle (placed (0x9100000000000000 * 2 ^ 448)) 0) 0 = .trap ⟨0x170, 0x80, 0, 0, 0, false, false⟩ := by decide +kernel

theorem witness_PowerAndSteps :
    ({ State.reset with power := false } : State).agenda = [] ∧ State.reset.power = true := by decide +kernel

theorem witness_IssueWithoutEffect_guard :
    committing.power = true ∧ committing.me.committing = true ∧ committing.ctx.guard gFalse = false ∧
    (slotInfo (.br gFalse 4)).isSome = true := by decide +kernel
theorem witness_IssueWithoutEffect_trap :
    alone.me.committing = false ∧ loneVerdict alone (.eret g) = .trap ⟨0x170, 0x80, 0, 0, 0, false, false⟩ := by decide +kernel
theorem witness_IssueWithoutEffect_hold :
    let s := on0 fun x => { x with act := .running, outst := 1, ctx := { x.ctx with scyc := 1 } }
    s.me.committing = false ∧ ∃ r, loneVerdict s (.flushy g false (.s 1)) = .hold r := by
  exact ⟨by decide +kernel, 3, by decide +kernel⟩

theorem witness_ScalarInstructionsIssue :
    let i := Instr.add .sa0 g false (.s 4) (.s 4) (.s 5)
    isScalarClass i = true ∧ (slotInfo i).isSome = true ∧ i.wf = true ∧ alone.me.mode = .u ∧ alone.ctx.seq.dsc = 0 ∧
    alone.ctx.scyc.toNat % 64 ≠ 0 ∧ alone.ctx.afl.getLsbD 18 = false ∧ (∀ r : Fin 64, vget alone.ctx.eph r.val none = none) ∧
    alone.me.mx = none ∧ alone.me.mxq = [] ∧ alone.me.tm = [] ∧ alone.me.rowRun = none ∧ alone.me.ag = [] ∧
    (∀ k < 8, (alone.cellar k).reqs = []) := by decide +kernel
theorem witness_IssueLeavesRegisters :
    alone.power = true ∧ loneVerdict alone (.add .sa0 g false (.s 4) (.s 4) (.s 5)) = .go := by decide +kernel
theorem witness_ScalarFrame : Acts alone (.add .sa0 g false (.s 4) (.s 4) (.s 5)) :=
  ⟨⟨rfl, .inr (by decide +kernel)⟩, by decide +kernel⟩

/-- One result for s3 due, from slot 0, with the flags given. -/
def dueFlight (f : FlagSet) (w : List Wr) : Flight := ⟨0, 0, .sa0, 0, f, w⟩
theorem witness_ResultLands_value :
    let s := onCtx fun x => { x with flights := [dueFlight 0 (destWrs .sa0 false (.s 3) 7), { dueFlight 0 [] with rem := 2 }] }
    (s.core 0).ctx.flights = [] ++ dueFlight 0 (destWrs .sa0 false (.s 3) 7) :: [{ dueFlight 0 [] with rem := 2 }] ∧
    (dueFlight 0 []).unit.num < 10 ∧ (dueFlight 0 []).unit ≠ .va ∧ (dueFlight 0 []).unit ≠ .sf := by decide +kernel
theorem witness_ResultLands_two :
    let f := dueFlight 0 (destWrs .sa0 false (.s 3) 7)
    let h := { dueFlight 0 (destWrs .sa0 false (.s 3) 8) with id := 1 }
    let s := onCtx fun x => { x with flights := [h, f] }
    (s.core 0).ctx.flights = [h, f] ∧ f.id < h.id := by decide +kernel
/-- Flag 6 alone, enabled and not: the ends of the flag range. -/
theorem witness_ResultLands_flags :
    let s := onCtx fun x => { x with flights := [dueFlight 0x40 []], afte := 0x40 }
    (s.core 0).ctx.flights = [dueFlight 0x40 []] ∧ (s.core 0).due = [] ∧ (s.core 0).ctx.afte.getLsbD 6 = true ∧
    (∀ j < 6, (0x40 : FlagSet).getLsbD j = true → (s.core 0).ctx.afte.getLsbD j = false) ∧
    (Ctx.reset.afte.getLsbD 6 = false) := by decide +kernel
/-- Flags 0 and 6, both enabled. -/
theorem witness_ResultLands_twoFlags :
    let s := onCtx fun x => { x with flights := [dueFlight 0x41 []], afte := 0x41 }
    (s.core 0).due = [] ∧ (0x41 : FlagSet).getLsbD 0 = true ∧ (s.core 0).ctx.afte.getLsbD 0 = true ∧
    (0x41 : FlagSet).getLsbD 6 = true ∧ (s.core 0).ctx.afte.getLsbD 6 = true := by decide +kernel

theorem witness_SourcePortsAndScheduleCycle :
    vget (vset Ctx.reset.eph 3 (some ⟨5, 1⟩)) 3 none = some (⟨5, 0 + 1⟩ : Eph) ∧
    vget (vset Ctx.reset.eph 3 (some ⟨5, 0⟩)) 3 none = some (⟨5, 0⟩ : Eph) ∧
    (5 : Fin 6).val < ({ Seq.zero with depth := 6 } : Seq).depth ∧ Seq.zero.depth ≤ (0 : Fin 6).val ∧
    Core.reset.mode = .u ∧ ({ Core.reset with mode := .s } : Core).mode = .s := by decide +kernel

theorem witness_CoreTimingEvents_expiry :
    vget ((onCtx fun x => { x with eph := vset x.eph 3 (some ⟨5, 0⟩) }).core 0).ctx.eph 3 none = some ⟨5, 0⟩ := by decide +kernel
/-- Schedule cycle 0 refreshes bank 0 (R115), which `add s4, s4, s5` reads. -/
def atRefresh (h : Option Hold) (cyc : Word) : State :=
  (placed 0x8080202028000000).modCore 0 fun x => { x with hold := h, ctx := { x.ctx with scyc := cyc } }
theorem witness_CoreTimingEvents_refresh :
    ((atRefresh none 0).core 0).issues = true ∧ ((atRefresh none 0).core 0).mode = .u ∧ fetchVerdict (atRefresh none 0) 0 = .hold 1 := by
  decide +kernel
theorem witness_CoreTimingEvents_end :
    ((atRefresh (some ⟨4, 3⟩) 1).core 0).issues = true ∧ ((atRefresh (some ⟨4, 3⟩) 1).core 0).hold = some ⟨4, 3⟩ ∧
    fetchVerdict (atRefresh (some ⟨4, 3⟩) 1) 0 = .go := by decide +kernel

/-! ## Witnesses: memory -/

theorem witness_StepsKeepMemory :
    State.reset.memOk = true ∧ (match step State.reset with | .next _ => true | _ => false) = true := by decide +kernel
/-- A mapped address, and one that a cached range gives although no table maps it; neither range nor table gives another's channel. -/
theorem witness_AddressesAreDistinct_translation :
    let r : XRange := ⟨0, 0x40000000, 0x10000, 0x30000, false⟩
    let s := { mapped id with xlat := vset State.reset.xlat 0 [r] }
    let t := { mapped id with xlat := vset State.reset.xlat 0 [{ r with pb := 0x40000000 }] }
    xlate (mapped id) 0 0 0x100000 true = .ok 0x100000 true (2 ^ 30) ∧ xlate s 0 0 0x40000010 false = .ok 0x30010 false 0x10000 ∧
    xlate s 0 0 0x40000010 true = .bad 0x0A1 ∧ xlate t 0 0 0x40000010 false = .bad 0x0A3 := by decide +kernel
theorem witness_AddressesAreDistinct :
    spaceExists (.core 255) ∧ (0x1FFFFF : Nat) < (Space.core 255).size ∧ spaceExists (.die 3) := by
  exact ⟨by show 255 < 256; decide, by decide +kernel, by show 3 < 4; decide⟩
/-- A discarded line under a byte that nothing has written. -/
theorem witness_MemoryReadsBack :
    ({ State.reset with discard := mput false (2 ^ 46) true [] } : State).memOk = true ∧ spaceExists (.core 0) ∧
    0x1FFFF8 + 8 ≤ (Space.core 0).size := by
  exact ⟨by decide +kernel, by show 0 < 256; decide, by decide +kernel⟩
/-! ## Witnesses: the S class -/

theorem witness_IntegerResults :
    Acts committing (.add .sa0 g false (.s 1) (.s 2) (.s 3)) ∧ Acts committing (.sub .sa1 g true (.s 1) (.s 2) .z) ∧
    Acts committing (.addi .sa0 g (.s 1) (.s 2) 0x4000000) ∧ Acts committing (.mul .sa0 g false .z (.s 2) (.s 3)) ∧
    Acts committing (.mulh .sa0 g false (.s 1) (.s 2) (.s 3)) ∧ Acts committing (.mulhu .sa0 g false (.s 1) (.s 2) (.s 3)) ∧
    Acts committing (.div .sa0 g false (.s 1) (.s 2) .z) ∧ Acts committing (.divu .sa0 g false (.s 1) (.s 2) (.s 3)) ∧
    Acts committing (.rem .sa0 g false (.s 1) (.s 2) (.s 3)) ∧ Acts committing (.remu .sa0 g false (.s 1) (.s 2) (.s 3)) ∧
    Acts committing (.min .sa0 g false (.s 1) (.s 2) (.s 3)) ∧ Acts committing (.max .sa0 g false (.s 1) (.s 2) (.s 3)) ∧
    Acts committing (.minu .sa0 g false (.s 1) (.s 2) (.s 3)) ∧ Acts committing (.maxu .sa0 g false (.s 1) (.s 2) (.s 3)) :=
  ⟨acts _ rfl, acts _ rfl, acts _ rfl, acts _ rfl, acts _ rfl, acts _ rfl, acts _ rfl, acts _ rfl, acts _ rfl, acts _ rfl,
    acts _ rfl, acts _ rfl, acts _ rfl, acts _ rfl⟩
/-- A field of all 64 bits, and one of a single bit at the top. -/
theorem witness_BitwiseResults :
    Acts committing (.and .sa0 g false (.s 1) (.s 2) (.s 3)) ∧ Acts committing (.andn .sa0 g false (.s 1) (.s 2) (.s 3)) ∧
    Acts committing (.or .sa0 g false (.s 1) (.s 2) (.s 3)) ∧ Acts committing (.xor .sa0 g false (.s 1) (.s 2) (.s 3)) ∧
    Acts committing (.shl .sa0 g false (.s 1) (.s 2) (.s 3)) ∧ Acts committing (.shr .sa0 g false (.s 1) (.s 2) (.s 3)) ∧
    Acts committing (.sar .sa0 g false (.s 1) (.s 2) (.s 3)) ∧ Acts committing (.rol .sa0 g false (.s 1) (.s 2) (.s 3)) ∧
    Acts committing (.clz .sa0 g false (.s 1) (.s 2)) ∧ Acts committing (.ctz .sa0 g false (.s 1) (.s 2)) ∧
    Acts committing (.popc .sa0 g false (.s 1) (.s 2)) ∧ Acts committing (.brev .sa0 g false (.s 1) (.s 2)) ∧
    Acts committing (.mov .sa0 g false (.s 1) (.s 2)) ∧
    ((0 : BitVec 6).toNat + (63 : BitVec 6).toNat + 1 ≤ 64 ∧ Acts committing (.ext .sa0 g false (.s 1) (.s 2) true 0 63)) ∧
    ((63 : BitVec 6).toNat + (0 : BitVec 6).toNat + 1 ≤ 64 ∧ Acts committing (.ins .sa0 g false (.s 1) (.s 2) (.s 3) 63 0)) :=
  ⟨acts _ rfl, acts _ rfl, acts _ rfl, acts _ rfl, acts _ rfl, acts _ rfl, acts _ rfl, acts _ rfl, acts _ rfl, acts _ rfl,
    acts _ rfl, acts _ rfl, acts _ rfl, ⟨by decide, acts _ rfl⟩, ⟨by decide, acts _ rfl⟩⟩
theorem witness_SelResult :
    encodeSlot false (.sel .sa0 g false (.s 1) (.s 2) (.s 3) (.s 4)) = some (0, 0x1300081018100000) ∧
    (Instr.sel .sa0 g false (.s 1) (.s 2) (.s 3) (.s 4)).wf = true ∧ Acts committing (.sel .sa0 g false (.s 1) (.s 2) (.s 3) (.s 4)) :=
  ⟨by decide +kernel, by decide +kernel, acts _ rfl⟩
/-- With s1 = s2 = 0 the conditions eq, ge, geu, le and leu hold and the others do not. -/
theorem witness_CompareAndPredicateResults :
    Acts committing (.cmp .sa0 g false (.s 1) (.s 1) (.s 2) .eq) ∧ Acts committing (.cmp .sa0 g false (.p 1) (.s 1) (.s 2) .ltu) ∧
    Acts committing (.li .sa0 g (.s 1) 5) ∧ Acts committing (.lih .sa0 g (.s 1) 5) ∧ Acts committing (.pset .sa0 g (.p 7) (.s 1)) ∧
    Acts committing (.plog .sa0 g (.p 1) (.p 0) (.p 7) 6) := ⟨acts _ rfl, acts _ rfl, acts _ rfl, acts _ rfl, acts _ rfl, acts _ rfl⟩
theorem witness_FloatResults :
    Acts committing (.fadd .sa0 g false (.s 1) (.s 2) (.s 3) .s .rne) ∧ Acts committing (.fsub .sa0 g false (.s 1) (.s 2) (.s 3) .d .rtz) ∧
    Acts committing (.fmul .sa0 g false (.s 1) (.s 2) (.s 3) .s .rne) ∧ Acts committing (.ffma .sa0 g false (.s 1) (.s 2) (.s 3) (.s 4) .d .rne) ∧
    Acts committing (.fdiv .sa0 g false (.s 1) (.s 2) .z .s .rne) ∧ Acts committing (.fsqrt .sa0 g false (.s 1) (.s 2) .d .rne) ∧
    Acts committing (.fmin .sa0 g false (.s 1) (.s 2) (.s 3) .s) ∧ Acts committing (.fmax .sa0 g false (.s 1) (.s 2) (.s 3) .d) ∧
    Acts committing (.fcmp .sa0 g false (.s 1) (.s 2) (.s 3) .s .lt) ∧ Acts committing (.fcvt .sa0 g false (.s 1) (.s 2) .bf16 .rne .f32) :=
  ⟨acts _ rfl, acts _ rfl, acts _ rfl, acts _ rfl, acts _ rfl, acts _ rfl, acts _ rfl, acts _ rfl, acts _ rfl, acts _ rfl⟩
/-- A handle of rank 3, its last dimension, and a 32-bit format. -/
theorem witness_HandleResults :
    Acts committing (.hget .sa0 g false (.s 1) (.h 31) 18) ∧ Acts committing (.hset .sa0 g (.h 1) (.h 2) (.s 3) 13) ∧
    Acts committing (.hadv .sa0 g (.h 1) (.h 2) (.s 3) 3) ∧
    3 ≤ Handle.rank ((3 : HandleBits) <<< 70) ∧ Handle.width ((3 : HandleBits) <<< 70) ≥ 8 :=
  ⟨acts _ rfl, acts _ rfl, acts _ rfl, by decide +kernel, by decide +kernel⟩

/-! ## Witnesses: sequencer and system registers -/

/-- The loop of R100: its body ends at bundle 5. -/
def inLoop (i l : BitVec 20) : Seq :=
  { Seq.zero with pc := 0x140, depth := 1, loops := vset Seq.zero.loops 0 ⟨i, l, 3, 5⟩ }
theorem witness_SequencerSteps :
    Seq.zero.halt = false ∧ ({ Seq.zero with skip := 2 } : Seq).skip ≠ 0 ∧
    (({ Seq.zero with pdly := 1, ptgt := 9 } : Seq).pops = 0 ∧ ({ Seq.zero with pdly := 2 } : Seq).depth = 0) ∧
    (vget (inLoop 0 2).loops 0 LoopEntry.zero).fin.toNat = (inLoop 0 2).pc / 64 ∧
    (vget (inLoop 0 2).loops 0 LoopEntry.zero).index.toNat + 1 < (vget (inLoop 0 2).loops 0 LoopEntry.zero).limit.toNat ∧
    (vget (inLoop 1 2).loops 0 LoopEntry.zero).limit.toNat ≤ (vget (inLoop 1 2).loops 0 LoopEntry.zero).index.toNat + 1 := by
  decide +kernel
theorem witness_ControlFlowResults :
    (Acts committing (.br g 4) ∧ ((256 : Nat) : Int) = committing.ctx.seq.pc + 64 * (4 : BitVec 27).toInt) ∧
    (Acts committing (.brc g (.s 1) .eqz 4) ∧ (committing.ctx.val (.s 1)).toInt = 0 ∧
      ((256 : Nat) : Int) = committing.ctx.seq.pc + 64 * (4 : BitVec 24).toInt) ∧
    (Acts committing (.brc g (.s 1) .nez 4) ∧ ¬ (committing.ctx.val (.s 1)).toInt ≠ 0) ∧
    Acts committing (.call g (.s 1) 4) ∧ Acts committing (.jr g (.s 1) (.s 2)) ∧ Acts committing (.ret g (.s 2)) ∧ committing.cur < 256 ∧
    Acts committing (.loop g (.s 7) 5) ∧ Acts committing (.loopl g 5) ∧ Acts committing (.loopx g 1) ∧ Acts committing (.fin g) ∧
    Acts committing (.nop g 0xFFFF) :=
  ⟨⟨acts _ rfl, by decide +kernel⟩, ⟨acts _ rfl, by decide +kernel, by decide +kernel⟩, ⟨acts _ rfl, by decide +kernel⟩,
    acts _ rfl, acts _ rfl, acts _ rfl, by decide, acts _ rfl, acts _ rfl, acts _ rfl, acts _ rfl, acts _ rfl⟩
theorem witness_SystemRegisterAccess :
    Acts committing (.sysrd g false (.s 1) (.sys 31)) ∧ Acts committing (.sysrd g false (.s 1) (.sys 20)) ∧
    Acts committing (.syswr g (.sys 0) (.s 1)) ∧
    (alone.power = true ∧ alone.me.committing = false ∧ alone.me.mode = .u ∧ valueWaits alone alone.cur (.sysrd g false (.s 1) (.sys 0)) = [] ∧
      valueWaits alone alone.cur (.syswr g (.sys 0) (.s 1)) = [] ∧ valueWaits alone alone.cur (.eret g) = []) :=
  ⟨acts _ rfl, acts _ rfl, acts _ rfl, by decide +kernel⟩
/-- LSWIN with an entry selected, SHST with idle lanes at both ends of PERM, QCFG setting EN. -/
theorem witness_SystemRegisterWrites :
    State.reset.power = true ∧ (State.reset.core 255).ctx.seq.sel < 6 ∧ (State.reset.core 255).ctx.hi.out = 0 ∧
    (State.reset.core 255).ctx.hi.pend = 0 ∧ (1 ≤ bvField (0x10001000 : Word) 28 4 ∧ bvField (0x80008000 : Word) 28 4 ≤ 8) ∧
    (0x20 : Word).getLsbD 5 = true ∧ (State.reset.queue 15).en = false := by decide +kernel

/-! ## Witnesses: traps -/

/-- A handler at bundle 1. -/
def armed (f : Core → Core) : State := on0 fun x => f { x with tvec := 0x8000000000000040, act := .running }
theorem witness_TrapEntry :
    (armed id).memOk = true ∧ ((armed id).core 0).mode = .u ∧ ((armed id).core 0).tvec.getLsbD 63 = true ∧ frameFits ((armed id).core 0) ∧
    ((armed fun x => { x with mode := .s }).core 0).mode = .s ∧
    (let h : Held := ⟨0x060, 0x80, 0, 0, 0, false, false⟩; let d : Held := ⟨0x171, 0x80, 0, 0, 0, false, false⟩;
      d ∈ ((armed fun x => { x with due := [d, h] }).core 0).due ∧ d ≠ h) := by
  unfold frameFits; decide +kernel
theorem witness_TrapsAndReturn :
    (Acts committing (.trap g 42) ∧ committing.me.committing = true) ∧
    (Acts alone (.trap g 42) ∧ alone.me.committing = false) ∧
    (Acts committing (.bkpt g 7) ∧ committing.me.tvec.getLsbD 62 = false) ∧
    (let s := armed fun x => { x with tvec := 0xC000000000000040, committing := true };
      Acts s (.bkpt g 7) ∧ s.me.tvec.getLsbD 62 = true ∧ s.me.mode = .u) :=
  ⟨⟨acts _ rfl, by decide +kernel⟩, ⟨⟨⟨rfl, .inr (by decide +kernel)⟩, by decide +kernel⟩, by decide +kernel⟩,
    ⟨acts _ rfl, by decide +kernel⟩, ⟨⟨rfl, .inl (by decide +kernel)⟩, by decide +kernel⟩, by decide +kernel⟩
/-- A handler's ERET as a bundle of its own. -/
theorem witness_TrapsAndReturn_eret :
    let s := armed fun x => { x with mode := .s }
    Acts s (.eret g) ∧ s.me.committing = false ∧ s.me.mode = .s ∧ s.ctx.flights = [] ∧ s.me.yielded = none ∧ s.me.saved = .no ∧
    s.me.stepst.getLsbD 63 = false ∧ s.me.atEnd = false ∧ s.me.rollDue = false ∧ s.me.trace.idle = true ∧
    readNat s (.core s.cur) 0x1F0016 2 % 2 ^ 14 = 0 :=
  ⟨⟨⟨rfl, .inr (by decide +kernel)⟩, by decide +kernel⟩, by decide +kernel⟩
/-- A result of the handler in flight, and a context whose save is complete. -/
theorem witness_TrapsAndReturn_waits :
    let s := armed fun x => { x with mode := .s, ctx := { x.ctx with flights := [dueFlight 0 []] } }
    let t := armed fun x => { x with mode := .s, saved := .ready 5 }
    (Acts s (.eret g) ∧ s.ctx.flights ≠ []) ∧ Acts t (.eret g) ∧ t.ctx.flights = [] ∧ t.me.saved = .ready 5 ∧ t.me.trace.idle = true :=
  ⟨⟨⟨⟨rfl, .inr (by decide +kernel)⟩, by decide +kernel⟩, by decide +kernel⟩, ⟨⟨rfl, .inr (by decide +kernel)⟩, by decide +kernel⟩,
    by decide +kernel⟩
theorem witness_TrapEvents_doubleTrap :
    let s := armed fun x => { x with mode := .s, due := [⟨0x171, 0x80, 0, 0, 0, false, false⟩] }
    s.memOk = true ∧ (s.core 0).mode = .s ∧ (s.core 0).act = .running ∧ (s.core 0).due ≠ [] := by decide +kernel
theorem witness_TrapEvents_trapEntry :
    let s := armed fun x => { x with held := [⟨0x0E8, 0, 0, 0, 0, true, true⟩] }
    (s.core 0).mode = .u ∧ (s.core 0).tvec.getLsbD 63 = true ∧ (s.core 0).ckpt = none ∧ frameFits (s.core 0) ∧
    (s.core 0).held = [⟨0x0E8, 0, 0, 0, 0, true, true⟩] := by unfold frameFits; decide +kernel
/-- Breakpoint 1 in schedule cycle 9: it stops, and with ACT = 1 it samples. -/
def atBreakpoint (act : BitVec 512) : State :=
  armed fun x => { x with trace := { x.trace with tsb := ((1 ||| (act <<< 1)) <<< 224) ||| (9 <<< 256) }, ctx := { x.ctx with scyc := 9 } }
theorem witness_TrapEvents_breakpoint :
    ((atBreakpoint 0).core 0).issues = true ∧ (((atBreakpoint 0).core 0).trace.bkc 1).getLsbD 0 = true ∧
    (((atBreakpoint 0).core 0).trace.bkc 1).getLsbD 1 = false ∧ (((atBreakpoint 0).core 0).trace.bkc 1).getLsbD 2 = false ∧
    ((atBreakpoint 0).core 0).trace.fired.getLsbD 1 = false ∧ ((atBreakpoint 0).core 0).trace.bks 1 = ((atBreakpoint 0).core 0).ctx.scyc ∧
    (((atBreakpoint 1).core 0).trace.bkc 1).getLsbD 1 = true := by decide +kernel
theorem witness_TrapEvents_landing :
    (let s := armed fun x => { x with ctx := { x.ctx with seq := { x.ctx.seq with boundary := true } } };
      (s.core 0).landsNow = true ∧ (s.core 0).held = []) ∧
    ((armed id).core 0).landsNow = false ∧
    (let s := armed fun x => { x with act := .free, ctag := 1 };
      (s.core 0).act = .free ∧ (s.core 0).ctag ≠ 0 ∧ (s.core 0).preReq = false ∧ (s.core 0).yieldHeld = none) := by decide +kernel
/-! ## Witnesses: saving, errors, synchronisation -/

/-- A handler's save-engine command `n`, its spill region mapped at 0x10_0000, or not mapped at all. -/
def saving (n : Nat) (saved : Saved) (va : Word) : State :=
  mapped fun x => { x with act := .running, mode := .s, ctxBusy := some n, saved := saved, ctxspill := va, inten := false }
theorem witness_SaveEngineEvents_mapped :
    let bad := fun (s : State) (wr : Bool) (l : List (Nat × Nat)) => spillBad s 0 wr (spillPages (s.core 0) l)
    let whole := [(0, 0x24800)]
    let lines := [(0x24800, 3968), (0x30000, 64 * spLines)]
    let switch := [(0xF00, 256)]
    ((saving 1 .no 0x100000).core 0).mode = .s ∧ ((saving 1 .no 0x100000).core 0).saveReady = true ∧
    ((saving 1 .no 0x100000).core 0).heldAtoms = [] ∧ bad (saving 1 .no 0x100000) true whole = none ∧
    ((saving 2 (.image 0) 0x100000).core 0).outst = 0 ∧ bad (saving 2 (.image 0) 0x100000) true lines = none ∧
    bad (saving 5 .no 0x100000) true switch = none ∧ bad (saving 4 .no 0x100000) false lines = none ∧
    bad (saving 3 .no 0x100000) false whole = none ∧ ((saving 3 .no 0x100000).part 0).pausing = false ∧
    ((saving 3 .no 0x100000).core 0).trace.idle = true ∧ bad (saving 6 .no 0x100000) false switch = none := by decide +kernel
/-- With the first gigabyte in the engine's cache, the pages of the region lie one after another from 0x10_0000. -/
theorem witness_SaveEngineEvents_flat (n m : Nat) (hm : m ≤ 34) :
    let s := { saving 1 .no 0x100000 with xlat := vset State.reset.xlat 0 [⟨0, 0, 2 ^ 30, 0, true⟩] }
    s.memOk = true ∧ ∃ base : Nat → Nat,
      (∀ i, n ≤ i → i < m → base i + 0x10000 ≤ 2 ^ 52 ∧ ∀ j < 0x10000, spillPa s 0 (s.core 0) (0x10000 * i + j) = base i + j) ∧
      ∀ i j, n ≤ i → i < m → n ≤ j → j < m → i ≠ j → base i + 0x10000 ≤ base j ∨ base j + 0x10000 ≤ base i := by
  intro s
  have pa : ∀ o < 0x220000, spillPa s 0 (s.core 0) o = 0x100000 + o := by
    intro o ho
    have hc : (s.core 0).ctxspill.toNat = 0x100000 ∧ (s.core 0).part = 0 ∧ s.ranges (engineOf 0) = [⟨0, 0, 2 ^ 30, 0, true⟩] ∧
        (s.part 0).hasChannel 0 = true := by decide +kernel
    have va : spillVa (s.core 0) o = 0x100000 + o := by
      simp only [spillVa, wrap, hc.1]; omega
    have can : canonical (0x100000 + o) = true := by
      have b : bitAt (0x100000 + o) 47 = false := Nat.testBit_lt_two_pow (by omega)
      simp only [canonical, field, b, beq_iff_eq, Bool.false_eq_true, if_false]; omega
    have own : ownedPa (s.part 0) (0x100000 + o) = true := by
      have b : bitAt (0x100000 + o) 51 = false := Nat.testBit_lt_two_pow (by omega)
      simp only [ownedPa, b, Bool.false_eq_true, if_false, Bool.and_eq_true, decide_eq_true_eq]
      exact ⟨by omega, by rw [show (0x100000 + o) / 2 ^ 30 = 0 by omega]; exact hc.2.2.2⟩
    have holds : XRange.holds ⟨0, 0, 2 ^ 30, 0, true⟩ 0 (0x100000 + o) = true := by
      simp only [XRange.holds, beq_self_eq_true, Bool.true_and, Bool.and_eq_true, decide_eq_true_eq]; omega
    have holds' : XRange.holds ⟨0, 0, 1073741824, 0, true⟩ 0 (0x100000 + o) = true := holds
    simp [spillPa, xlate, hc.2.1, hc.2.2.1, va, can, own, holds, holds']
  refine ⟨by decide +kernel, fun i => 0x100000 + 0x10000 * i, fun i _ h => ⟨by dsimp only; omega, fun j hj => ?_⟩, fun i j _ _ _ _ h => by dsimp only; omega⟩
  rw [pa _ (by omega)]; dsimp only; omega
/-- The second gigabyte is not mapped: cause 0x0A0. -/
theorem witness_SaveEngineEvents_unmapped :
    let bad := fun (s : State) (wr : Bool) (l : List (Nat × Nat)) => spillBad s 0 wr (spillPages (s.core 0) l)
    let lines := [(0x24800, 3968), (0x30000, 64 * spLines)]
    bad (saving 1 .no 0x40000000) true [(0, 0x24800)] = some 0x0A0 ∧ bad (saving 2 .no 0x40000000) true lines = some 0x0A0 ∧
    bad (saving 5 .no 0x40000000) true [(0xF00, 256)] = some 0x0A0 ∧ bad (saving 4 .no 0x40000000) false lines = some 0x0A0 ∧
    bad (saving 3 .no 0x40000000) false [(0, 0x24800)] = some 0x0A0 ∧ bad (saving 6 .no 0x40000000) false [(0xF00, 256)] = some 0x0A0 := by
  decide +kernel

def kvroll : Op := { opOf (.kvroll g (.k 1) (.s 1) false) with ctag := 0, phase := .started }
theorem plain_of (s : State) (o : Op) (h : (decide (o.core < 256) && o.orig.isNone && (s.core o.core).ctag == o.ctag &&
    (s.core o.core).away.isEmpty && (s.core o.core).ckpt.isNone && (s.part o.part).replay.isNone) = true) : Plain s o := by
  simpa [Plain, and_assoc] using h
theorem witness_ErrorTraceAndDiscardEvents :
    (committing.memOk = true ∧ (committing.core 0).act = .running ∧ (committing.core 0).mode = .u ∧ (committing.core 0).ckpt = none ∧
      ((armed fun x => { x with mode := .s }).core 0).mode = .s ∧ ((armed fun x => { x with mode := .s }).core 0).ckpt = none) ∧
    (let o := { kvroll with cflog := 0x0001100007FFFFC0 };
     let s := { State.reset with cellars := vset State.reset.cellars 7 ⟨[o], [], []⟩ };
      (s.cellar 7).reqs = [o] ∧ o.phase = .started ∧ Plain s o ∧ bvField o.cflog 44 4 = 1 ∧
      bvField o.cflog 5 22 * 32 + 32 * (bvField (s.core 0).ctx.cflog 48 16 % 2 ^ 1) + 32 ≤ (Space.die (dieOf o.core)).size) ∧
    (let x := (on0 fun x => { x with dsc := 0x2000000800007FFF }).core 0;
      x.dsc.getLsbD 61 = true ∧ bvField x.dsc 62 2 = 0 ∧ bvField x.dsc 35 21 = 1 ∧ bvField x.dsc 0 21 < 0x8000) :=
  ⟨by decide +kernel, ⟨by decide +kernel, rfl, plain_of _ _ (by decide +kernel), by decide +kernel⟩, by decide +kernel⟩
/-- A core with a checkpoint open, in its reruns too, and in the handler; with the fetch address in slot 3 of the instruction store; and
with a list copy of one byte between two places of its scratchpad. -/
def openCk (n errors : Nat) (undo : Map (BitVec 512)) : Ckpt :=
  { shadow := Ctx.reset, undo := undo, once := [], pos := 0, since := 0, rerun := n, sigs := [], writes := [], errors := errors, first := 1,
    flagsIn := [], resume := none, mid := false, fired := 0, failn := 2, phase0 := 0, syncs := [], synced := 0, yieldHeld := none, ending := none }
def cpyl0 : Op :=
  { opOf (.cpyl g (.k 2) (.s 8) (.s 9) .core false .core) with phase := .started, a := 0, b := 1, spwcl := 0x0FFF0000, spwdi := 0x0FFF0000 }
def rerunning0 (n errors : Nat) (undo : Map (BitVec 512)) (m : Mode) : State :=
  armed fun x => { x with mode := m, ckpt := some (openCk n errors undo) }
theorem rerunning0_ckpt (n e : Nat) (u : Map (BitVec 512)) (m : Mode) : ((rerunning0 n e u m).core 0).ckpt = some (openCk n e u) := by
  simp [rerunning0, armed, on0, State.core, vset, vget]
theorem witness_ErrorTraceAndDiscardEvents_errors :
    (((rerunning0 0 0 [(0x7FFF, 5)] .u).core 0).ckpt = some (openCk 0 0 [(0x7FFF, 5)]) ∧
      ((rerunning0 2 3 [] .u).core 0).ckpt = some (openCk 2 3 []) ∧ ((rerunning0 0 0 [] .s).core 0).ckpt.isSome = true) ∧
    (let x := (armed fun x => { x with ctx := { x.ctx with seq := { x.ctx.seq with pc := 0x3FFC0 } } }).core 0;
      x.mode = .u ∧ x.act = .running ∧ x.tvec.getLsbD 63 = true ∧ x.ckpt = none ∧ x.ctx.seq.pc / 0x10000 = 3) ∧
    (let x := (on0 fun x => { x with act := .running, stepst := BitVec.ofNat 64 (2 ^ 63 + 0x174), ctx := { x.ctx with seq := { x.ctx.seq with halt := true } } }).core 0;
      x.drained = true ∧ x.stepst = BitVec.ofNat 64 (2 ^ 63 + 0x174) ∧ x.rerunning = false ∧ x.preReq = false ∧ x.swReq = false ∧
      x.yieldHeld = none) :=
  ⟨⟨rerunning0_ckpt .., rerunning0_ckpt .., by rw [rerunning0_ckpt]; rfl⟩, by decide +kernel, by decide +kernel⟩
/-- A list copy of two rows of a byte each within the scratchpad, its list at 0. -/
def copying : State :=
  { mapped (fun x => { x with taken := [cpyl0] }) with
    mem := putBytes [] (physAddr State.reset (.core 0) 0) 
      (leBytes 0x40 8 ++ leBytes 0x80 8 ++ leBytes 0 16 ++ leBytes 1 4 ++ leBytes 2 4 ++ leBytes 0xFFFF00 4) }
theorem witness_ErrorTraceAndDiscardEvents_copy :
    (copying.core 0).taken = [cpyl0] ∧ (copying.core 0).ag = [] ∧ (copying.core 0).stash = [] ∧
    (match listEntry copying cpyl0 0 with
      | .ok e => e.ok && !e.rf && decide (e.ss.lvl < 3) && decide (e.ds.lvl < 3) && decide (0 < e.len * e.rows)
      | .error _ => false) = true := by decide +kernel
/-- A trace list of one page at 0x10_0000, its last record next. -/
def tracing (i : Nat) : State :=
  { mapped fun x => { x with trace := { x.trace with tsb := 0x8000 ||| (1 <<< 64), idx := i, buf := [5] } } with
    mem := [(0x1000, 1), (0x1001, 0x20), (0x2000, 7), (0x8002, 0x10)] }
theorem witness_ErrorTraceAndDiscardEvents_trace :
    (tracing 2047).memOk = true ∧ ((tracing 2047).core 0).trace.fault = none ∧ ((tracing 2047).core 0).trace.buf = [5] ∧
    ((tracing 2047).core 0).trace.bad < ((tracing 2047).core 0).trace.npg ∧
    tracePlace (tracing 2047) 0 = .ok (0x100000 + 32 * 2047) true (2 ^ 30) ∧
    tracePlace (tracing 0) 0 = .ok 0x100000 true (2 ^ 30) := by decide +kernel

def flags (f : Nat) (v : BitVec 20) : State := onCtx fun x => { x with scyc := 1, s := vset x.s 2 0x80000000, k := vset x.k f v }
theorem witness_SynchronisationResults :
    Acts committing (.await g false (.s 1) (.k 31) (.s 2) true) ∧
    ((flags 0 0).ctx.guard g = true ∧ (flags 0 0).ctx.flagVal 0 < ((flags 0 0).ctx.val (.s 2)).toNat) ∧
    (1048575 < ((flags 0 0).ctx.val (.s 2)).toNat ∧ valueWaits (flags 0 0) (flags 0 0).cur (.await g false (.s 1) (.k 0) (.s 2) false) = []) ∧
    ((on0 fun x => { x with outst := 1 }).me.outst ≠ 0) ∧ Acts committing (.flushy g false (.s 1)) ∧
    (committing.me.ckpt = none ∧ Acts committing (.post g (.k 1) (.s 1) (.s 0) (.s 0) .core false)) ∧
    (Acts committing (.syncd g false (.s 1) 0) ∧ committing.cur < 256) ∧
    (let s := on0 fun x => { x with act := .running, committing := true, phaseEnd := some 3 };
      Acts s (.syncd g false (.s 1) 4) ∧ s.me.phaseEnd = some 3) ∧
    (Acts committing (.yieldc g false (.s 1) (.s 2)) ∧ committing.me.mode = .u) :=
  ⟨acts _ rfl, by decide +kernel, ⟨by decide +kernel, by decide +kernel⟩, by decide +kernel, acts _ rfl, ⟨by decide +kernel, acts _ rfl⟩,
    ⟨acts _ rfl, by decide⟩, ⟨⟨⟨rfl, .inl (by decide +kernel)⟩, by decide +kernel⟩, by decide +kernel⟩, ⟨acts _ rfl, by decide +kernel⟩⟩
/-- Flag 31 alone in the mask: empty and full. -/
theorem witness_WaitqResult :
    ((flags 0 0).ctx.guard g = true ∧ (∀ k < 32, ((flags 0 0).ctx.val (.s 3)).getLsbD k = false) ∧
      valueWaits (flags 0 0) (flags 0 0).cur (.waitq g false (.s 1) (.s 3)) = []) ∧
    (∀ k < 32, ((flags 31 0).ctx.val (.s 2)).getLsbD k = true → (flags 31 0).ctx.flagVal k = 0) ∧
    (Acts (flags 31 1) (.waitq g false (.s 1) (.s 2)) ∧ ((flags 31 1).ctx.val (.s 2)).getLsbD 31 = true ∧ 1 ≤ (flags 31 1).ctx.flagVal 31 ∧
      ∀ k < 31, ((flags 31 1).ctx.val (.s 2)).getLsbD k = true → (flags 31 1).ctx.flagVal k = 0) :=
  ⟨by decide +kernel, by decide +kernel, ⟨⟨rfl, .inr (by decide +kernel)⟩, by decide +kernel⟩, by decide +kernel⟩
/-- The rest of what WAITQ needs to issue. -/
theorem witness_WaitqResult_issues :
    let s := flags 31 1
    (Instr.waitq g false (.s 1) (.s 2)).wf = true ∧ s.ctx.guard g = true ∧ s.cur < 256 ∧ s.me.mode = .u ∧ s.ctx.seq.dsc = 0 ∧
    s.ctx.scyc.toNat % 64 ≠ 0 ∧ s.ctx.afl.getLsbD 18 = false ∧ isByp (.s 2) = false ∧ (∀ r : Fin 64, vget s.ctx.eph r.val none = none) ∧
    s.me.mx = none ∧ s.me.mxq = [] ∧ s.me.tm = [] ∧ s.me.rowRun = none ∧ s.me.ag = [] ∧ (∀ k < 8, (s.cellar k).reqs = []) ∧
    (s.ctx.val (.s 2)).getLsbD 31 = true ∧ 1 ≤ s.ctx.flagVal 31 ∧ (flags 31 0).ctx.flagVal 31 = 0 := by decide +kernel
theorem witness_SetdmrResult : Acts committing (.setdmr g false (.s 1) (.s 2) true) ∧ Acts committing (.setdmr g false (.s 1) (.s 2) false) :=
  ⟨acts _ rfl, acts _ rfl⟩
theorem witness_MarkAndCheckpointResults :
    (Acts committing (.mark g true 2) ∧ committing.me.mode = .u) ∧
    (let s := on0 fun x => { x with act := .running, committing := true, mode := .s };
      Acts s (.mark g false 0) ∧ s.me.mode = .s ∧ Acts s (.ckpt g false .z)) ∧
    (Acts committing (.ckpt g false (.s 1)) ∧ committing.me.inten = true ∧ committing.me.rerunning = false ∧ committing.me.act ≠ .retired) :=
  ⟨⟨acts _ rfl, by decide +kernel⟩,
    ⟨⟨⟨rfl, .inl (by decide +kernel)⟩, by decide +kernel⟩, by decide +kernel, ⟨rfl, .inl (by decide +kernel)⟩, by decide +kernel⟩,
    ⟨acts _ rfl, by decide +kernel⟩⟩

/-! ## Witnesses: vectors, directions, matrices -/

theorem witness_RowInstructionsIssue :
    (hasRows (.vadd g (.tile 2) (.tile 0) (.tile 1) .rne 0 31) = true ∧ Acts committing (.vadd g (.tile 2) (.tile 0) (.tile 1) .rne 0 31)) ∧
    (hasRows (.exp2 g (.tile 0) (.tile 0) 63 0) = true ∧ Acts committing (.exp2 g (.tile 0) (.tile 0) 63 0)) ∧
    Acts committing (.vrowRel g (.tile 7)) := ⟨⟨by decide +kernel, acts _ rfl⟩, ⟨by decide +kernel, acts _ rfl⟩, acts _ rfl⟩
def rowOp (i : Instr) (t : Tag) : RowOp := ⟨0, i, 0, 0, 0, t, t, 63, 0, 0, 0, 0, false⟩
theorem witness_VectorLanes :
    let o := rowOp (.vadd g (.tile 2) (.tile 0) (.tile 1) .rne 63 0)
    let s := onCtx fun x => { x with va := ⟨some (o .int32), []⟩ };
    (s.core 0).ctx.va.cur = some (o .int32) ∧ (o .int32).ty = .int32 ∧ (o .fp32).ty = .fp32 ∧ (o .fp32).dead = false ∧
    (s.core 0).mode = .u ∧ s.power = true := by decide +kernel
theorem witness_RowsAndPairsLand :
    let s := fun w => onCtx fun x => { x with flights := [dueFlight 0 [w]] };
    ((s (.row 7 63 1)).core 0).ctx.flights = [dueFlight 0 [.row (7 : Fin 8).val (63 : Fin 64).val 1]] ∧
    ((s (.norm 15 1)).core 0).ctx.flights = [dueFlight 0 [.norm (15 : Fin 16).val 1]] ∧
    ((s (.dir 15 1)).core 0).ctx.flights = [dueFlight 0 [.dir (15 : Fin 16).val 1]] := by decide +kernel
theorem witness_DirectionResults :
    Acts committing (.dscl g (.d 1) (.d 2) (.s 3)) ∧ Acts committing (.dadd g (.d 1) (.d 2) (.d 3)) ∧
    Acts committing (.dsub g (.d 1) (.d 2) (.d 3)) ∧ Acts committing (.dlerp g (.d 1) (.d 2) (.d 3) (.s 4)) ∧
    Acts committing (.dneg g (.d 1) (.d 2)) ∧ Acts committing (.dnset g (.d 1) (.s 2)) ∧ Acts committing (.dsplit g (.d 1) (.d 2) (.s 3)) ∧
    Acts committing (.dfrom g (.d 1) (.tile 0) 62) ∧ Acts committing (.dcos g false (.s 9) (.d 0) (.d 1)) ∧
    Acts committing (.ddotw g false (.s 9) (.d 0) (.d 1)) ∧ Acts committing (.dnget g false (.s 9) (.nrm 0)) ∧
    Acts committing (.djoin g false (.s 9) (.nrm 0) (.s 1)) ∧ Acts committing (.dcmp g false (.s 9) (.d 0) (.d 1) (.s 2) 1 2 true .lt) ∧
    Acts committing (.dto g (.tile 0) (.d 0) .bf16 .rne 63) ∧ Acts committing (.dto g (.tile 0) (.d 0) .f32 .rne 62) :=
  ⟨acts _ rfl, acts _ rfl, acts _ rfl, acts _ rfl, acts _ rfl, acts _ rfl, acts _ rfl, acts _ rfl, acts _ rfl, acts _ rfl, acts _ rfl,
    acts _ rfl, acts _ rfl, acts _ rfl, acts _ rfl⟩
/-- A norm of −∞ beside nonzero lanes fits no state of R170; a zero direction and a plain pair fit. -/
theorem witness_DirectionResults_fit :
    let p : Pair := ⟨1 :: List.replicate 127 0, 0x3F800000, 1#8⟩
    p.d.all (· == 0) = false ∧ p.n ≠ 0xFF800000 ∧ (unpack .f32 p.n).isNaN = false ∧ p.fit = p ∧
    { p with n := 0xFF800000 }.fit.d.all (· == 0) = true ∧ { p with n := 0xFF800000 }.fit.f = 1#8 ∧
    (Pair.zero 0#8).d.all (· == 0) = true ∧ (Pair.zero 0#8).fit = Pair.zero 0#8 := by decide +kernel
theorem witness_MatrixInstructionsIssue :
    committing.me.ckpt = none ∧ Acts committing (.mzero g (.tile 0) .f32) ∧ Acts committing (.mload g (.tile 0) (.b 0) false) ∧
    Acts committing (.mma g (.tile 0) (.b 0) (.b 1) .z .z false true 0) ∧ Acts committing (.mmat g (.tile 0) (.b 0) (.b 1) .z .z true true 0) ∧
    Acts committing (.mmask g (.s 1) .z) ∧ Acts committing (.mdrain g (.b 2) (.tile 0) .z .rne) ∧
    Acts committing (.mstep g (.tile 0) (.b 0) (.b 1) (.b 2) 31) ∧ Acts committing (.mstash g (.k 1) (.tile 0) (.s 1) (.s 2)) ∧
    Acts committing (.munst g (.k 1) (.tile 0) (.s 1) (.s 2)) ∧ Acts committing (.mfmt g (.tile 0) (.tile 1) .z .i32 .rne) ∧
    ((on0 fun x => { x with mxq := [opOf (.msync g)] }).me.mxOps ≠ [] ∧ (on0 fun x => { x with mxq := [opOf (.msync g)] }).ctx.guard g = true) ∧
    Acts committing (.mqry g false (.s 1) (.tile 7) 0) ∧ Acts committing (.mqry g false (.s 1) (.s 0) 1) ∧
    Acts committing (.mqry g false (.s 1) (.s 0) 2) ∧ Acts committing (.msync g) :=
  ⟨by decide +kernel, acts _ rfl, acts _ rfl, acts _ rfl, acts _ rfl, acts _ rfl, acts _ rfl, acts _ rfl, acts _ rfl, acts _ rfl, acts _ rfl,
    by decide +kernel, acts _ rfl, acts _ rfl, acts _ rfl, acts _ rfl⟩
def runOf (i : Instr) (step : Nat) : MxRun := ⟨opOf i, 0, step, 0, [], 0⟩
theorem witness_MzeroResult :
    Acts committing (.mzero g (.tile 7) .i32) ∧ (Fmt.bf16 ≠ .f32 ∧ Fmt.bf16 ≠ .f64 ∧ Fmt.bf16 ≠ .i32) ∧
    ((mxBegin committing 0 (opOf (.mzero g (.tile 7) .f32))).core 0).mx.isSome = true ∧
    (let s := on0 fun x => { x with mx := some (runOf (.mzero g (.tile 7) .f32) 0) };
      (s.core 0).mx = some (runOf (.mzero g (.tile 7) .f32) 0) ∧ (s.core 0).mode = .u) := 
  ⟨acts _ rfl, by decide, by decide +kernel, by decide +kernel⟩
theorem witness_ArrayEvents :
    (let s := on0 fun x => { x with mxq := [opOf (.mmask g (.s 1) .z)] };
      (s.core 0).mx = none ∧ (s.core 0).mxq = opOf (.mmask g (.s 1) .z) :: []) ∧
    (let r := runOf (.mstep g (.tile 0) (.b 0) (.b 1) (.b 2) 31) 60;
      r.left = 0 ∧ r.step % 2 = 0 ∧ r.step / 2 < (31 : BitVec 5).toNat ∧ bOf (.b 0) < 16 ∧ bOf (.b 2) ≠ bOf (.b 0)) ∧
    (let o := opOf (.munst g (.k 1) (.tile 0) (.s 1) (.s 2));
     let s := mapped fun x => { x with stash := [{ o with f := 1 }] };
      (s.core 0).mx = none ∧ (s.core 0).stash = [{ o with f := 1 }] ∧ fencedBefore (s.core 0) { o with f := 1 } = false ∧
      readsInOrder s { o with f := 1 } = true ∧
      (match unstRead (s.modCore 0 fun x => { x with stash := [] }) { o with f := 1 } (maskRows 1) 0 with | .ok _ => true | .error _ => false) = true) ∧
    (let o := opOf (.mstash g (.k 1) (.tile 0) (.s 1) (.s 2));
     let s := mapped fun x => { x with stash := [{ o with f := 1 }] };
      (s.core 0).stash = [{ o with f := 1 }] ∧ o.orig = none ∧ stashLets s { o with f := 1 } = true ∧ (stashWrite { o with f := 1 } (maskRows 1) [] 0 s).fail = none) ∧
    ((on0 fun x => { x with mx := some (runOf (.mmask g (.s 1) .z) 0) }).core 0).mx = some (runOf (.mmask g (.s 1) .z) 0) := by
  decide +kernel
/-! ## Witnesses: memory units -/

theorem witness_ScratchpadLoadStore :
    Acts committing (.lds g false (.s 1) (.s 2) .z 3 false 0x800) ∧ Acts committing (.sts g (.s 1) (.s 2) .z 0 0x7FF) ∧
    (let f : Flight := ⟨0, 0, .ag, 2, 0, [.store 0x1FFFF8 8 5 0]⟩; let s := onCtx fun x => { x with flights := [f] };
      s.memOk = true ∧ (s.core 0).ctx.flights = [f] ∧ (s.core 0).ckpt = none ∧ 0x1FFFF8 + 8 ≤ 0x200000) ∧
    (let f : Flight := ⟨0, 0, .ag, 2, 0, [.load 0x1FFFFF 1 true (.s 1) true]⟩; let s := onCtx fun x => { x with flights := [f] };
      (s.core 0).ctx.flights = [f]) := ⟨acts _ rfl, acts _ rfl, by decide +kernel, by decide +kernel⟩
/-- A bobbin of two slots with one in use: a pop of one and of two, a push of one and of two. -/
def bob1 : Bobbin := { Bobbin.unconfigured with v := true, loc := 1 <<< 56, cnt := 1, tail := 1 }
theorem witness_BobbinResults :
    Acts committing (.bset g (.b 1) (.s 1) (.s 2)) ∧ Acts committing (.bpush g (.b 1) (.s 1)) ∧ Acts committing (.bpop g (.b 1) (.s 1)) ∧
    Acts committing (.bqry g false (.s 1) (.b 15) 3) ∧
    (let f : Flight := ⟨0, 0, .ag, 2, 0, [.bpop 15 1]⟩; let s := onCtx fun x => { x with flights := [f], bob := vset x.bob 15 bob1 };
      (s.core 0).ctx.flights = [f] ∧ (1 : Word).toNat ≤ ((s.core 0).ctx.bobbin 15).cnt ∧ ((s.core 0).ctx.bobbin 15).cnt < (2 : Word).toNat ∧
      bob1.tail < bob1.cap ∧ (1 : Word).toNat ≤ bob1.cap - bob1.cnt ∧ bob1.cap - bob1.cnt < (2 : Word).toNat ∧ (s.core 0).ag = []) :=
  ⟨acts _ rfl, acts _ rfl, acts _ rfl, acts _ rfl, by decide +kernel⟩
theorem witness_TileTransfersQueue :
    committing.me.ckpt = none ∧ Acts committing (.tld g (.b 15) (.h 31) (.s 1) (.k 1)) ∧ Acts committing (.tldg g (.b 0) (.h 1) (.s 1) (.k 1)) ∧
    Acts committing (.tst g (.k 1) (.h 1) (.s 1) (.b 0)) ∧ Acts committing (.tsts g (.k 1) (.h 1) (.s 1) (.b 0)) :=
  ⟨by decide +kernel, acts _ rfl, acts _ rfl, acts _ rfl, acts _ rfl⟩

def tld0 : Op := opOf (.tld g (.b 0) (.h 1) (.s 1) (.k 1))
def tst0 : Op := { opOf (.tst g (.k 1) (.h 1) (.s 1) (.b 0)) with phase := .started }
def tmv0 : Op := opOf (.tmv g (.k 1) (.h 1) (.h 2))
theorem witness_TransferEvents :
    (let s := on0 fun x => { x with ag := [tld0] };
      Plain s tld0 ∧ (s.core 0).ag = tld0 :: [] ∧ tld0.phase = .queued ∧ isAtom tld0.ins = false ∧ agReady s tld0 = true) ∧
    (let s := on0 fun x => { x with ce := [tmv0] };
      Plain s tmv0 ∧ (s.core 0).ce = [tmv0] ∧ (s.core 0).taken = [] ∧ isTmv tmv0.ins = true ∧ (s.core 0).mode = .u ∧ (s.core 0).fenceOps = [] ∧
      (s.core 0).ctx.flights = []) ∧
    (let o := { tld0 with phase := .started };
     let s := on0 fun x => { x with ag := [o], ctx := { x.ctx with bob := vset x.ctx.bob 0 { bob1 with slots := [(0, .reserved)] } } };
      (s.core 0).ag = [o] ∧ fillBob o.ins = some 0 ∧ storeBob o.ins = none ∧ failKind o.ins ≠ 1 ∧
      ((s.core 0).ctx.bobbin 0).slot 0 = .reserved ∧ (s.core 0).pendingBefore o.id = []) ∧
    (let o := { tld0 with phase := .performed }; let s := on0 fun x => { x with ag := [o] };
      Plain s o ∧ (s.core 0).ag = [o] ∧ fillBob o.ins = some 0 ∧ storeBob o.ins = none ∧ isAtom o.ins = false) ∧
    (let s := on0 fun x => { x with ag := [tst0] };
      Plain s tst0 ∧ (s.core 0).ag = [tst0] ∧ fillBob tst0.ins = none ∧ storeBob tst0.ins = some 0 ∧
      tst0.slotState (s.core 0) ≠ .failed ∧ mayWrite s tst0 = true) ∧
    (let s := onCtx fun x => { x with bob := vset x.bob 15 { bob1 with claims := [⟨0, 1, false, true⟩] } };
      ((s.core 0).ctx.bobbin 15).claims = ⟨0, 1, false, true⟩ :: []) :=
  ⟨⟨plain_of _ _ (by decide +kernel), by decide +kernel⟩, ⟨plain_of _ _ (by decide +kernel), by decide +kernel⟩, by decide +kernel,
    ⟨plain_of _ _ (by decide +kernel), by decide +kernel⟩, ⟨plain_of _ _ (by decide +kernel), by decide +kernel⟩, by decide +kernel⟩
/-- Success with and without a flag, a failure, and a log of two records whose last place is the level's end. -/
theorem witness_OperationsEnd :
    Plain committing tld0 ∧ tld0.afl = 0 ∧ tld0.fails = 0 ∧ flagOf tld0.ins = some 1 ∧ flagOf (opOf (.msync g)).ins = none ∧
    { tld0 with fails := 1 }.fails ≠ 0 ∧
    (let o := { tld0 with cflog := 0x0001100007FFFFC0 };
      bvField o.cflog 44 4 = 1 ∧ bvField o.cflog 5 22 * 32 + 32 * (1 % 2 ^ 1) + 32 ≤ (Space.die (dieOf o.core)).size) :=
  ⟨plain_of _ _ (by decide +kernel), by decide +kernel⟩
def atom0 : Op := { opOf (.atomAdd g false (.s 63) (.s 1) (.s 2) .core .core true 0) with a := 0x1FFFF8, b := 0xFFFFFFFFFFFFFFFF }
theorem witness_AtomicResults :
    committing.me.ckpt = none ∧ Acts committing (.atomAdd g false (.s 1) (.s 2) (.s 3) .die .die true 64) ∧
    Acts committing (.atomMin g false (.s 1) (.s 2) (.s 3) .die .die true true 64) ∧
    Acts committing (.atomCas g false (.s 1) (.s 2) (.s 3) (.s 4) .die .hbm true 64) ∧
    (let s := on0 fun x => { x with ag := [atom0] };
      s.memOk = true ∧ (s.core 0).ag = [atom0] ∧ atom0.phase = .queued ∧ (s.core 0).ckpt = none ∧ (s.part atom0.part).replay = none ∧
      (s.part atom0.part).d 170 2 = 0 ∧ (s.core 0).pendingBefore atom0.id = [] ∧ atom0.mute = false ∧ atom0.a.toNat + 8 ≤ 0x200000 ∧ (s.core 0).mode = .u) ∧
    (let o := { atom0 with phase := .performed }; let s := on0 fun x => { x with ag := [o] };
      (s.core 0).ag = [o] ∧ o.ctag = (s.core 0).ctag ∧ (s.core 0).away = [] ∧ (s.core 0).ctx.flights = [] ∧ (s.core 0).landed = []) :=
  ⟨by decide +kernel, acts _ rfl, acts _ rfl, acts _ rfl, by decide +kernel, by decide +kernel⟩
def fence0 : Op := { opOf (.fence g .system) with id := 9 }
def marker0 : Marker := ⟨11, 1, Vector.replicate 12 0⟩
theorem witness_FencesAndEpochs :
    Acts committing (.fence g .system) ∧
    (let s := on0 fun x => { x with fences := [fence0] };
      (s.core 0).fences = fence0 :: [] ∧ (s.core 0).mode = .u ∧ performedBefore s 0 fence0.id = true) ∧
    (let s := on0 fun x => { x with fences := [fence0], ag := [tld0] };
      (s.core 0).fences = fence0 :: [] ∧ performedBefore s 0 fence0.id = false) ∧
    (let s := { State.reset with dies := vset State.reset.dies 0 { Die.reset with markers := [marker0] } };
      (s.die 0).markers = marker0 :: [] ∧ s.net = [] ∧ s.notices = [] ∧ s.bar = [] ∧ (∀ k < 256, (s.core k).ag = []) ∧ clockAllows s marker0.clock marker0.src 0 = true ∧
      ∀ p < 8, (s.part p).replay = none ∧ (s.part p).d 170 2 = 0) := ⟨acts _ rfl, by decide +kernel, by decide +kernel, by decide +kernel⟩
theorem witness_CopyInstructionsIssue :
    committing.me.ckpt = none ∧ Acts committing (.cpy g (.k 1) (.h 1) (.h 2) .z .system) ∧
    Acts committing (.cpyl g (.k 2) (.s 8) (.s 9) .die false .core) ∧ Acts committing (.hqpush g (.k 1) (.s 1) (.s 2)) ∧
    Acts committing (.hqpop g (.k 1) (.s 1) (.s 2)) ∧ Acts committing (.ovl g (.k 1) (.s 1) (.s 2) true 255 3) ∧
    Acts committing (.tmv g (.k 1) (.h 1) (.h 31)) ∧ Acts committing (.tmv g (.k 1) (.h 1) (.b 15)) ∧
    Acts committing (.cpyq g false (.s 1) 0) ∧ Acts committing (.cpyq g false (.s 1) 3) :=
  ⟨by decide +kernel, acts _ rfl, acts _ rfl, acts _ rfl, acts _ rfl, acts _ rfl, acts _ rfl, acts _ rfl, acts _ rfl, acts _ rfl⟩

def push0 : Op := { opOf (.hqpush g (.k 1) (.s 1) (.s 2)) with a := 1023 }
def list0 : Op := { opOf (.cpyl g (.k 2) (.s 8) (.s 9) .core true .core) with b := 2, phase := .started }
/-- A hatch queue of one entry on die 3, in the die's last line, free or full; the granule belongs to partition 0. -/
def hatched (cnt : Word) (f : Core → Core) : State :=
  { on0 f with
    dies := vset State.reset.dies 3 { Die.reset with hatch := [(255, ⟨0x8000000007FFFFC0, 0, cnt <<< 32⟩)] }
    parts := vset State.reset.parts 0 { Part.empty with set := true, desc := (0x8000000000000000 <<< 320) ||| (1 <<< 64) } }
theorem witness_CopyEngineEvents :
    (let s := hatched 0 fun x => { x with ce := [push0] };
      Plain s push0 ∧ (s.core 0).ce = [push0] ∧ (s.core 0).taken = [] ∧ (s.core 0).mode = .u ∧ (s.core 0).fenceOps = [] ∧
      (s.core 0).ctx.flights = []) ∧
    (let s := on0 fun x => { x with ce := [{ list0 with phase := .queued }] }; (s.core 0).ce = [{ list0 with phase := .queued }]) ∧
    (let s := hatched 0 fun x => { x with taken := [push0] };
      (s.core 0).taken = [push0] ∧ push0.phase = .queued ∧ push0.err = none ∧ (s.hatchOf push0.a.toNat).cnt < (s.hatchOf push0.a.toNat).cap ∧
      hatchPlace s push0.a.toNat ((s.hatchOf push0.a.toNat).line (s.hatchOf push0.a.toNat).tail) = some 0x7FFFFC0 ∧
      mayWrite s { push0 with phase := .started } = true ∧ clockLets s (dieOf 0) (.die (push0.a.toNat / 256)) 0 = true ∧
      incrsDone s push0 = true) ∧
    (let s := hatched 1 fun x => { x with taken := [push0] }; (s.hatchOf push0.a.toNat).cap ≤ (s.hatchOf push0.a.toNat).cnt) ∧
    (let s := on0 fun x => { x with taken := [list0] };
      Plain s list0 ∧ (s.core 0).taken = [list0] ∧ (s.core 0).ag = [] ∧ mayWrite s list0 = true ∧ incrsDone s list0 = true ∧ list0.phase = .started ∧ list0.idx < list0.b.toNat ∧
      (listItem s list0 .core list0.idx).fail.isSome = true ∧ ((listItem s list0 .core list0.idx).st.core 0).failn = (s.core 0).failn) :=
  ⟨⟨plain_of _ _ (by decide +kernel), by decide +kernel⟩, by decide +kernel, by decide +kernel, by decide +kernel,
    ⟨plain_of _ _ (by decide +kernel), by decide +kernel⟩⟩
def incr0 (tag : BitVec 16) : Incr := ⟨0, tag, 31, 1, 0, Vector.replicate 12 0, 0, 0, false, true, false⟩
/-- The flag one below and at its limit; the buffer empty and with an entry at its limit. -/
theorem witness_IncrementEvents :
    (let s := { on0 fun x => { x with ctag := 1, act := .running, ctx := { x.ctx with k := vset x.ctx.k 31 1048575 } } with net := [incr0 1] };
      s.net = [incr0 1] ∧ incrMay s (incr0 1) = true ∧ (s.core (incr0 1).src).ctag = (incr0 1).ctag ∧ (s.core 0).liveTag (incr0 1).ctag = true ∧
      1048575 < (s.core 0).ctx.flagVal 31 + (incr0 1).amt) ∧
    (let s := { on0 fun x => { x with pib := [⟨2, 31, 1048575⟩] } with net := [incr0 2] };
      s.net = [incr0 2] ∧ incrMay s (incr0 2) = true ∧ (s.core 0).liveTag (incr0 2).ctag = false ∧ (s.core 0).pib = [⟨(incr0 2).ctag, (incr0 2).flag, 1048575⟩] ∧
      (State.reset.core 0).pib = []) ∧
    (let o := opOf (.post g (.k 31) (.s 1) (.s 0) (.s 0) .core false); let s := on0 fun x => { x with sy := [o] };
      Plain s o ∧ (s.core 0).sy = [o] ∧ o.phase = .queued ∧ (s.core 0).mode = .u ∧ (s.core 0).fences = [] ∧
      performedBefore s 0 o.id = true ∧ o.a = 0 ∧ { o with a := 1 }.a ≠ 0) :=
  ⟨by decide +kernel, by decide +kernel, ⟨plain_of _ _ (by decide +kernel), by decide +kernel⟩⟩

/-! ## Witnesses: token rows, cellars, launches -/

theorem witness_TmInstructionsQueue :
    committing.me.ckpt = none ∧ Acts committing (.rcmp g (.k 3) (.h 4) (.h 5) (.s 10) 6 true .live 0) ∧
    Acts committing (.rrst g (.k 3) (.h 4) (.h 5) (.s 10) 511) ∧ Acts committing (.rpred g (.k 3) (.s 1) (.s 2) (.s 3) true 1 0) ∧
    Acts committing (.rset g (.k 3) (.s 1) (.s 2) (.s 3) 0) ∧ Acts committing (.rsetCfg g (.s 1)) ∧
    Acts committing (.rcnt g false (.s 1) (.s 2) (.s 0) 2) ∧ Acts committing (.kvapp g (.k 2) (.h 3) (.s 8) true) ∧
    Acts committing (.kvappGap g (.k 2) (.s 1) (.s 2) (.s 3) false) ∧ Acts committing (.kvcomAcc g (.k 2) (.s 1) (.s 2) false) ∧
    Acts committing (.kvcomSet g (.k 2) (.s 1) (.s 2) false) ∧ Acts committing (.kvtent g false (.s 1) (.s 2) false) ∧
    Acts committing (.kvroll g (.k 1) (.s 2) false) ∧ Acts committing (.kvrscl g (.k 1) (.s 2) (.s 3) false) ∧
    Acts committing (.kvfill g (.k 1) (.s 2) (.s 3) (.s 4) false) ∧ Acts committing (.attn g (.k 1) (.h 2) (.s 3) (.s 4) false) ∧
    Acts committing (.exitn g (.k 1) (.s 2) (.s 3)) ∧ Acts committing (.opbpostArm g (.k 2) (.s 8) (.s 9) true) ∧
    Acts committing (.opbpostDec g (.k 2) (.s 8) (.s 9)) ∧ Acts committing (.shsend g (.k 1) (.h 4) (.s 8) false) ∧
    Acts committing (.shrecv g (.k 1) (.s 8) true) :=
  ⟨by decide +kernel, acts _ rfl, acts _ rfl, acts _ rfl, acts _ rfl, acts _ rfl, acts _ rfl, acts _ rfl, acts _ rfl, acts _ rfl,
    acts _ rfl, acts _ rfl, acts _ rfl, acts _ rfl, acts _ rfl, acts _ rfl, acts _ rfl, acts _ rfl, acts _ rfl, acts _ rfl, acts _ rfl⟩
/-- RSET's last word is the scratchpad's last. -/
def rset0 : Op := { opOf (.rset g (.k 1) (.s 1) (.s 2) (.s 3) 5) with a := 0x1FFFF0, b := 4, c := 4 }
theorem witness_RowInstructionEffects :
    (let s := on0 fun x => { x with tm := [rset0] };
      (s.core 0).mode = .u ∧ (s.core 0).fenceOps = [] ∧ (s.core 0).ctx.flights = [] ∧ (s.core 0).rowRun = none ∧
      (s.core 0).tm = rset0 :: [] ∧ s.memOk = true ∧ (s.core 0).ckpt = none) ∧
    rset0.orig = none ∧ rset0.a.toNat + 2 * (rset0.b.toNat + rset0.c.toNat) ≤ 0x200000 := by decide +kernel
def inTm (o : Op) : State := on0 fun x => { x with tm := [o] }
def shsend0 : Op := { opOf (.shsend g (.k 1) (.h 4) (.s 8) true) with ha := 0 }
theorem witness_RequestsAreSent :
    (Plain (inTm kvroll) kvroll ∧ ((inTm kvroll).core 0).tm = kvroll :: [] ∧ ((inTm kvroll).core 0).mode = .u ∧
      ((inTm kvroll).core 0).fenceOps = [] ∧ ((inTm kvroll).core 0).ctx.flights = [] ∧ kvroll.data = [] ∧ acceptedFrom (inTm kvroll) 0 0 < 64) ∧
    (Plain (inTm shsend0) shsend0 ∧ (queryData (inTm shsend0) shsend0).2 = 0) ∧
    (let o := { opOf (.exitn g (.k 1) (.s 2) (.s 3)) with b := 15 }; Plain (inTm o) o ∧ unacked (inTm o) 0 o.b.toNat < 4) ∧
    (let o := opOf (.opbpostArm g (.k 2) (.s 8) (.s 9) true); Plain (inTm o) o ∧ o.part < 8 ∧ ((inTm o).part o.part).intake.length < 256) ∧
    Plain (inTm (opOf (.shrecv g (.k 1) (.s 8) true))) (opOf (.shrecv g (.k 1) (.s 8) true)) :=
  ⟨⟨plain_of _ _ (by decide +kernel), by decide +kernel⟩, ⟨plain_of _ _ (by decide +kernel), by decide +kernel⟩,
    ⟨plain_of _ _ (by decide +kernel), by decide +kernel⟩, ⟨plain_of _ _ (by decide +kernel), by decide +kernel⟩,
    plain_of _ _ (by decide +kernel)⟩
/-- A cellar whose partition owns slots 0 and 1 (R433), with lengths CL = 1 and TL = 2 in slot 1. -/
def cellared (n : Nat) (o : Op) (b : List Batch) : State :=
  { State.reset with
    cellars := vset State.reset.cellars n ⟨[o], b, [(1, (1, 2))]⟩
    parts := vset State.reset.parts 0 { Part.empty with set := true, desc := 0x20000 <<< (8 * (192 + 8 * n)) } }
def acc0 : Op := { opOf (.kvcomAcc g (.k 1) (.s 1) (.s 2) true) with phase := .started, a := 1, b := 1 }
theorem witness_CellarAndShuttleEvents_requests :
    (let s := on0 fun x => { x with rowRun := some rset0 }; Plain s rset0 ∧ (s.core 0).rowRun = some rset0 ∧ (s.core 0).mode = .u ∧ writesTmY rset0.ins = false) ∧
    (let o := opOf (.rcnt g false (.s 1) (.s 2) (.s 0) 2); let s := on0 fun x => { x with rowRun := some o };
      Plain s o ∧ (s.core 0).rowRun = some o ∧ (s.core 0).mode = .u ∧ writesTmY o.ins = true) ∧
    (let o := opOf (.rcmp g (.k 3) (.h 4) (.h 5) (.s 10) 6 false .live 0); let s := on0 fun x => { x with mode := .s };
      Plain s o ∧ (s.core 0).mode = .s ∧ (s.core 0).saved = .no ∧ o.fails = 0 ∧ flagOf o.ins = some 3 ∧ writesTmY o.ins = true) ∧
    (let s := cellared 7 acc0 [];
      Plain s acc0 ∧ (s.cellar 7).reqs = [acc0] ∧ (s.cellar 7).batches = [] ∧ acc0.phase = .started ∧ cellarLets s 7 acc0 = true ∧ bvField acc0.a 12 52 = 0 ∧
      slotOwned s acc0.part 7 (bvField acc0.a 0 12) = true ∧ lensOf s 7 (bvField acc0.a 0 12) = (1, 2) ∧ 1 + acc0.b.toNat ≤ 2 ∧
      (performRequest s 7 acc0).2.id = acc0.id ∧ ((performRequest s 7 acc0).1.cellar 7).reqs = [acc0]) ∧
    (let o := { kvroll with phase := .performed }; let s := cellared 0 o []; Plain s o ∧ (s.cellar 0).reqs = [o] ∧ writesTmY o.ins = false) :=
  ⟨⟨plain_of _ _ (by decide +kernel), by decide +kernel⟩, ⟨plain_of _ _ (by decide +kernel), by decide +kernel⟩,
    ⟨plain_of _ _ (by decide +kernel), by decide +kernel⟩, ⟨plain_of _ _ (by decide +kernel), by decide +kernel⟩,
    ⟨plain_of _ _ (by decide +kernel), by decide +kernel⟩⟩
def batch0 (done : Bool) : Batch := ⟨{ shsend0 with phase := .started }, true, [], done⟩
def notice0 (p : Phase) : Notice := ⟨{ opOf (.exitn g (.k 1) (.s 2) (.s 3)) with phase := .started }, 0, 0, 3, 255, List.replicate 64 7, p⟩
theorem witness_CellarAndShuttleEvents_shuttle :
    ((onCtx fun x => { x with hi := { x.hi with grants := 1 } }).core 0).ctx.hi.grants ≠ 0 ∧
    (let s := { State.reset with cellars := vset State.reset.cellars 1 ⟨[], [batch0 false], []⟩ };
      (s.cellar 1).batches = [batch0 false] ∧ (batch0 false).done = false ∧ Plain s (batch0 false).op ∧ Handle.size (batch0 false).op.ha 1 = 0 ∧
      countsOutstanding (batch0 false).op.ins = true ∧ cellarLets s 1 (batch0 false).op = true ∧ incrsDone s (batch0 false).op = true) ∧
    (let o := opOf (.shrecv g (.k 1) (.s 8) true);
     let s := { on0 fun x => { x with recv := [o] } with cellars := vset State.reset.cellars 1 ⟨[], [batch0 true], []⟩ };
      Plain s o ∧ (s.core 0).recv = [o] ∧ o.fails = 0 ∧ cellarOf o = 1 ∧ (s.cellar 1).batches = [batch0 true] ∧ (batch0 true).done = true ∧
      cellarLets s 1 o = true) ∧
    (let s := { State.reset with notices := [notice0 .performed] };
      s.notices = [notice0 .performed] ∧ (notice0 .performed).phase = .performed ∧ Plain s (notice0 .performed).op) ∧
    (let s := { hatched 0 id with notices := [notice0 .queued] };
      s.notices = [notice0 .queued] ∧ (notice0 .queued).mod = s.modno ∧ (notice0 .queued).bytes.length = 64 ∧ s.memOk = true ∧
      { notice0 .queued with mod := 1 }.mod ≠ s.modno) :=
  ⟨by decide +kernel, ⟨by decide +kernel, by decide +kernel, plain_of _ _ (by decide +kernel), by decide +kernel⟩,
    ⟨plain_of _ _ (by decide +kernel), by decide +kernel⟩, ⟨by decide +kernel, by decide +kernel, plain_of _ _ (by decide +kernel)⟩,
    by decide +kernel⟩
/-- An external hatch queue of one free entry. -/
theorem witness_CellarAndShuttleEvents_append :
    let s := { hatched 0 id with
      dies := vset State.reset.dies 3 { Die.reset with hatch := [(255, ⟨0xC000000007FFFFC0, 0, 0⟩)] }
      notices := [notice0 .queued] };
    (s.hatchOf 1023).cfg.getLsbD 63 = true ∧ (s.hatchOf 1023).cfg.getLsbD 62 = true ∧ (s.hatchOf 1023).cnt < (s.hatchOf 1023).cap ∧
    hatchPlace s 1023 ((s.hatchOf 1023).line (s.hatchOf 1023).tail) = some 0x7FFFFC0 ∧ (noticePlace s (notice0 .queued)).isSome = true ∧
    (s.hatchOf (notice0 .queued).name).full = false := by decide +kernel

/-- An operator block: image 1 of one bundle, one to two dies, one level of two steps, each a boundary step; `succ` lists at most
one successor. -/
def opb0 (succ : Option Nat) (pol : Bool) : BitVec 2048 :=
  1 ||| (1 <<< 128) ||| (1 <<< 176) ||| (2 <<< 184) ||| (0x1800002 <<< 320) ||| (if pol then 1 <<< 240 else 0) |||
    (match succ with | none => 0 | some k => (1 <<< 272) ||| (BitVec.ofNat 2048 k <<< 512))
/-- Partition 0 with control block 0 as `t` changes it, and core 0 as `f` does. -/
def tasked (t : Tcb → Tcb) (f : Core → Core) : State :=
  { mapped f with
    parts := vset State.reset.parts 0
      { Part.empty with set := true, desc := desc0, tcbs := [(0, t { Tcb.zero with opb := opb0 none false }), (1, { Tcb.zero with state := .waiting, depc := 1 })] } }
def rect0 : Rect := ⟨0, 0, 0⟩
theorem witness_StepEvents_release :
    let s := mapped fun x => { x with act := .running, ctx := { x.ctx with seq := { x.ctx.seq with halt := true } } };
    s.memOk = true ∧ (s.core 0).part < 8 ∧ (s.part 0).set = true ∧ (s.part 0).ringFull = false ∧ (s.core 0).drained = true ∧
    (s.core 0).rerunning = false ∧ (s.core 0).preReq = false ∧ (s.core 0).swReq = false ∧ (s.core 0).stepst = 0 ∧ (s.part 0).ring = [] ∧
    (∀ k < 256, (s.core k).arrived = none) ∧ ∀ k < 8, (s.cellar k).batches = [] := by decide +kernel
theorem witness_StepEvents_ring :
    let s := { mapped id with parts := vset State.reset.parts 0 { Part.empty with set := true, desc := desc0, ring := [⟨5, none, none⟩] } };
    s.memOk = true ∧ (s.part 0).ring = [⟨5, none, none⟩] ∧ (s.part 0).walk = [] ∧ (s.part 0).ringFull = false := by decide +kernel
theorem witness_StepEvents_dispatch :
    let s := tasked (fun t => { t with state := .running, ndie := 1, rects := [rect0] }) fun x =>
      { x with ctag := 1, istag := vset x.istag 0 ⟨1, 1, 0, 2⟩ };
    (s.part 0).set = true ∧ (s.tcb 0 0).state = .running ∧ (s.tcb 0 0).fails = 0 ∧ (s.part 0).blocked = false ∧ (s.part 0).pausing = false ∧
    (s.part 0).replay = none ∧ (s.core 0).act = .free ∧ (s.core 0).mode = .u ∧ (s.core 0).ctag ≠ 0 ∧ (s.core 0).part = 0 ∧
    (s.core 0).task = 0 ∧ 0 ∈ (s.tcb 0 0).cores ∧ (s.core 0).swReq = false ∧ (s.part 0).d 170 2 = 0 ∧ withdrawDue s 0 0 = false ∧
    (s.tcb 0 0).nextStep 0 = some 0 ∧
    entryResident (s.core 0) (s.tcb 0 0).opb = true := by decide +kernel
theorem witness_StepEvents_start :
    (let s := tasked id fun x => { x with act := .starting, inten := false, istag := vset x.istag 0 ⟨1, 1, 0, 2⟩ };
      (s.core 0).act = .starting ∧ entryResident (s.core 0) (s.tcb (s.core 0).part (s.core 0).task).opb = true ∧ (s.core 0).inten = false) ∧
    (let s := on0 fun x => { x with yielded := some 1, ctx := { x.ctx with k := vset x.ctx.k 0 1 } };
      (s.core 0).yielded = some 1 ∧ (s.core 0).parked = [] ∧ wakes (s.core 0) (s.core 0).ctag 1 (s.core 0).ctx.flagVal = true ∧
      wakes (State.reset.core 0) 0 1 (State.reset.core 0).ctx.flagVal = false) ∧
    (let s := tasked (fun t => { t with state := .running }) id;
      (s.tcb 0 0).state = .running ∧ ∀ k < 256, (s.core k).arrived = none) := by decide +kernel

/-- The operator block of `opb0 none false`, byte by byte, at 0. -/
def opbMem : List Host.Cell :=
  [(0, 1), (16, 1), (22, 1), (23, 2), (40, 2), (42, 0x80), (43, 1), (0x1000, 1), (0x1001, 0x20), (0x2000, 7)]
def arming (dec : Bool) (t : List (Nat × Tcb)) : State :=
  { mapped id with
    mem := opbMem
    parts := vset State.reset.parts 0
      { Part.empty with set := true, desc := desc0, tcbs := t, intake := [⟨0, dec, some 1, none⟩] } }
theorem witness_TaskEvents_arming :
    (arming false []).memOk = true ∧ ((arming false []).part 0).set = true ∧ ((arming false []).part 0).blocked = false ∧
    ((arming false []).part 0).replay = none ∧ ((arming false []).part 0).d 170 2 = 0 ∧ ((arming false []).part 0).intake = [⟨0, false, some 1, none⟩] ∧
    (match readOpb (arming false []) 0 0 with | .ok b => b == opb0 none false | .error _ => false) = true ∧
    opbMalformed ((arming false []).part 0) (opb0 none false) = false ∧ ((arming false []).tcb 0 0).busy = false ∧
    (let s := arming true [(0, { Tcb.zero with state := .waiting, depc := 1 })]; (s.tcb 0 0).state = .waiting ∧ 1 ≤ (s.tcb 0 0).depc) := by
  decide +kernel
theorem witness_TaskEvents_place :
    let s := tasked (fun t => { t with state := .ready }) id;
    (s.part 0).tear = false ∧ (s.part 0).pausing = false ∧ (s.part 0).ready = [0] ∧ risingDies [rect0] = true ∧
    opbDmin (s.tcb 0 0).opb ≤ [rect0].length ∧ [rect0].length ≤ opbDmax (s.tcb 0 0).opb ∧
    [rect0].all (rectFits s 0 (s.tcb 0 0).opb) = true := by decide +kernel
theorem witness_TaskEvents_ends :
    (let s := tasked (fun t => { t with state := .running, next := 2 }) id;
      (s.tcb 0 0).live = [] ∧ (s.tcb 0 0).redo = [] ∧ (s.tcb 0 0).fails = 0 ∧ (s.tcb 0 0).next = opbSteps (s.tcb 0 0).opb ∧
      opbSucc (s.tcb 0 0).opb = []) ∧
    (let s := tasked (fun t => { t with state := .running, next := 2, opb := opb0 (some 1) false }) id;
      (s.tcb 0 0).next = opbSteps (s.tcb 0 0).opb ∧ opbSucc (s.tcb 0 0).opb = [1] ∧ (s.tcb 0 1).state = .waiting) ∧
    (let s := tasked (fun t => { t with state := .running, fails := 1, opb := opb0 none true }) id;
      (s.tcb 0 0).state = .running ∧ (s.tcb 0 0).fails ≠ 0 ∧ (s.tcb 0 0).live = [] ∧ opbPol (s.tcb 0 0).opb = true) := by decide +kernel
/-- Two rectangles where one suffices while a larger task waits in front, and one where two are allowed; partition 0 holds cluster
8, of die 1, as well. -/
def wide (n : Nat) (r : List Rect) : State :=
  let t0 : Tcb := { Tcb.zero with state := .running, next := 1, ndie := n, rects := r, opb := opb0 none false ||| (1 <<< 192) }
  let t1 : Tcb := { Tcb.zero with state := .ready, opb := opb0 none false ||| (7 <<< 160) }
  { mapped id with
    parts := vset State.reset.parts 0 { Part.empty with set := true, desc := desc0 ||| (1 <<< 72), tcbs := [(0, t0), (1, t1)] } }
theorem witness_TaskEvents_dies :
    (let s := wide 2 [rect0, ⟨1, 0, 0⟩]; let r : Rect := ⟨1, 0, 0⟩;
      (s.part 0).pausing = false ∧ (s.tcb 0 0).state = .running ∧ (s.tcb 0 0).fails = 0 ∧ (s.tcb 0 0).live = [] ∧ (s.tcb 0 0).redo = [] ∧
      (s.tcb 0 0).next < opbSteps (s.tcb 0 0).opb ∧ opbBoundary (s.tcb 0 0).opb (s.tcb 0 0).next = true ∧ r ∈ (s.tcb 0 0).rects ∧
      r.die = lastDie (s.tcb 0 0).rects ∧ opbDmin (s.tcb 0 0).opb < (s.tcb 0 0).ndie ∧ unplacedBefore s 0 0 = true ∧
      (∀ c ∈ (s.tcb 0 0).lastCores, (s.core c).act = .free)) ∧
    (let s := wide 1 [rect0]; let r : Rect := ⟨1, 0, 0⟩;
      (∀ y ∈ (s.tcb 0 0).rects, y.die ≠ r.die) ∧ (s.tcb 0 0).ndie < opbDmax (s.tcb 0 0).opb ∧ (s.part 0).tear = false ∧
      rectFits s 0 (s.tcb 0 0).opb r = true) := by decide +kernel
/-! ## Witnesses: the host -/

/-- Queue 15 (or 0) enabled and notified, one entry ahead of it, the entry's bytes in host memory at 0. -/
def queued (q : Nat) (e : BitVec 512) (f : HostQ → HostQ) : State :=
  let s := { State.reset with
    status := { State.reset.status with run := true }
    queues := vset State.reset.queues q (f { HostQ.reset with qcfg := 0x20, qcpl := 0x1000, tail := 1, rung := true }) }
  writeNat s .pa (hostPa 0) 64 e.toNat
/-- DBGSTOP of core 0 as entry 0; the CRC-32C over its bytes, worked out outside the model, is 0x28F8_9F33. -/
def stopEntry : BitVec 512 := (4 <<< 64) ||| (0x28F89F33 <<< 32)
theorem witness_HostCommands_fetch :
    (served (queued 0 stopEntry id) 0 = true ∧ ((queued 0 stopEntry id).queue 0).tries = 0 ∧
      ((queued 0 stopEntry id).queue 0).head ≠ ((queued 0 stopEntry id).queue 0).tail ∧
      readNat (queued 0 stopEntry id) .pa (hostPa (((queued 0 stopEntry id).queue 0).base)) 64 = stopEntry.toNat ∧
      entF stopEntry 0 4 = 0 ∧ entF stopEntry 4 4 = entryCrc stopEntry ∧ permitted (queued 0 stopEntry id) 0 (entF stopEntry 8 1) = true ∧
      commandOf stopEntry = some (.dbgstop 0)) ∧
    (served (queued 15 0 id) 15 = true ∧ ¬ entF (0 : BitVec 512) 4 4 = entryCrc 0) ∧
    (served (queued 15 0 fun x => { x with tries := 7 }) 15 = true ∧ ((queued 15 0 fun x => { x with tries := 7 }).queue 15).tries = 7) ∧
    ((queued 15 0 fun x => { x with tries := 8 }).queue 15).tries = 8 := by decide +kernel
/-- Queue 15 belongs to partition 0. -/
def ofPart (q : Nat) (e : BitVec 512) (f : Part → Part) : State :=
  let s := queued q 0 fun x => { x with cur := some e }
  { s with parts := vset s.parts 0 (f { Part.empty with set := true, desc := desc0 ||| (1 <<< 111) }) }
theorem witness_HostCommands_arm :
    (let s := ofPart 15 (1 <<< 64) id; commandOf (1 <<< 64) = some (.arm 0 0 false) ∧ queuePart s 15 = 0 ∧ 0 < (s.part 0).opbcnt ∧
      (s.part 0).intake.length < 256 ∧ (s.queue 15).cur = some (1 <<< 64) ∧ s.memOk = true) ∧
    (commandOf ((2 <<< 64) ||| (1 <<< 144)) = some (.dec 0 1)) ∧
    (let s := ofPart 0 stopEntry id; (s.core 0).act = .free ∧ (s.queue 0).asked = false) ∧
    (committing.core 0).act = .running ∧
    (let e : BitVec 512 := (3 <<< 64) ||| (1 <<< 256);
     let s := { ofPart 15 e id with cores := Vector.replicate 256 { Core.reset with part := 1 } };
      commandOf e = some (.inval 0 0 1) ∧ (s.queue 15).asked = false ∧ ownQueue s 15 0 = true ∧ (∀ k < 256, (s.core k).part ≠ 0)) ∧
    ((ofPart 15 0 fun p => { p with inval := [(15, 0, 1)] }).part 0).inval = [(15, 0, 1)] := by decide +kernel
/-- `desc0`, byte by byte, in host memory at 0x1_0000. -/
def descMem : List Host.Cell :=
  [(8, 1), (48, 1), (137, 0x10), (152, 1), (168, 6)].map fun e => (2 ^ 51 + 0x10000 + e.1, e.2)
theorem descMem_reads (s : State) (hm : s.mem = descMem) (hd : s.discard = []) :
    BitVec.ofNat 8192 (readNat s .pa (hostPa 0x10000) 1024) = desc0 := by
  rw [readNat, readBytes_pa _ _ hd, hm]
  decide +kernel
def setupEntry : BitVec 512 := (0x10 <<< 64) ||| (0x10000 <<< 192)
def settingUp : State := { (queued 0 0 fun x => { x with cur := some setupEntry }) with mem := descMem }
theorem witness_HostCommands_setup : commandOf setupEntry = some (.psetup 0 0x10000) ∧
    BitVec.ofNat 8192 (readNat settingUp .pa (hostPa 0x10000) 1024) = desc0 ∧ descOk 0 desc0 = true ∧
    (settingUp.part 0).set = false ∧ descUnavailable settingUp.status desc0 = false ∧
    (∀ k < 8, (settingUp.part k).set = true → descMeet (settingUp.part k).desc desc0 = false) := by
  refine ⟨by decide +kernel, descMem_reads settingUp rfl ?_, by decide +kernel⟩
  decide +kernel
theorem witness_HostCommands_partitions :
    (let e : BitVec 512 := 0x11 <<< 64; let s := ofPart 0 e id;
      commandOf e = some (.ptear 0) ∧ (s.part 0).set = true ∧ contextsLeft s 0 = false ∧ (s.part 0).inval = []) ∧
    (let s := ofPart 0 (0x11 <<< 64) fun p => { p with tcbs := [(0, { Tcb.zero with state := .running })] }; contextsLeft s 0 = true) ∧
    (let e : BitVec 512 := (5 <<< 64) ||| (0x2000 <<< 256); commandOf e = some (.attest 0 0x2000)) := by decide +kernel
theorem witness_ModuleEvents :
    (let s := { State.reset with parts := vset State.reset.parts 0 { Part.empty with set := true, desc := desc0 ||| (7 <<< 5120) } };
      s.memOk = true ∧ bar4Place s 0x3FFFFFFF = some (.pa, 0x3FFFFFFF) ∧ s.bar = [] ∧
      barLets s ⟨0x3FFFFFFF, some 7, (s.die 0).vc⟩ = true ∧ barLets s ⟨0x3FFFFFFF, none, (s.die 0).vc⟩ = true ∧
      barLets s ⟨0x3FFFFFFF, none, vset (s.die 0).vc 1 5⟩ = false) ∧
    (State.reset.journal = [] ∧ 95 < 96 ∧ 89 < 90 ∧ (90 ≤ 95 ∧ 95 ≤ 95) ∧ 110 ≤ 110) ∧
    (let q := { Part.empty with set := true, desc := desc0 ||| (1 <<< 1360) };
     let s := fun b => { State.reset with parts := vset State.reset.parts 0 { q with pausing := b } };
      ((s false).part 0).set = true ∧ ((s false).part 0).d 170 2 ≠ 0 ∧ ((s false).part 0).pausing = false ∧ ((s true).part 0).pausing = true ∧
      (∀ c < 256, ((s true).part 0).hasCluster (clusterOf c) = true → ((s true).core c).atRest = true ∧ ((s true).core c).outst = 0) ∧
      ((s true).part 0).ckpts = [] ∧ ((s true).part 0).replay = none) := by decide +kernel
def snap0 : Snapshot :=
  { whole := true, pages := [], mem := [], discard := [], cores := [(0, Core.reset)], net := [], markers := [], intake := [], tcbs := [],
    walk := [], ring := [], hatch := [], lens := [], logAt := 0 }
def replayable : State := { State.reset with parts := vset State.reset.parts 0 { Part.empty with set := true, ckpts := [snap0] } }
theorem replayable_part : replayable.part 0 = { Part.empty with set := true, ckpts := [snap0] } := by
  simp [replayable, State.part, vset, vget]
theorem witness_ModuleEvents_replay :
    (replayable.part 0).set = true ∧ (replayable.part 0).ckpts[0]? = some snap0 ∧ snap0.cores = [(0, Core.reset)] := by
  rw [replayable_part]
  exact ⟨rfl, rfl, rfl⟩

/-! ## Witnesses: clauses over values, bytes and lengths -/

/-- Core 0 in S mode, with the step ring of partition 0 empty. -/
theorem witness_TrapEntry_ring :
    let s := mapped fun x => { x with mode := .s, act := .running }
    let q := s.part 0
    (s.core 0).mode = .s ∧ s.memOk = true ∧ (s.core 0).act = .running ∧ (s.core 0).atEnd = false ∧ (s.core 0).part = 0 ∧ q.set = true ∧
    q.ring = [] ∧ (s.core 0).trace.idle = true ∧ q.d 168 1 ≤ 20 ∧ (q.scrprod - q.scrcons).toNat + 2 ≤ 2 ^ q.d 168 1 := by decide +kernel
/-- The largest count at depth 5. -/
theorem witness_ControlFlowResults_depth :
    let s := onCtx fun x => { x with scyc := 1, s := vset x.s 7 1048575, byp := vset x.byp 7 0xFFFF0000, seq := { x.seq with depth := 5, pc := 64 } }
    s.me.committing = false ∧ Acts s (.loop g (.s 7) 5) ∧ (s.ctx.val (.s 7)).toNat = 1048575 ∧
    Acts s (.loopl g 5) ∧ ((s.ctx.bypass 7).extractLsb' 16 16).toNat ≠ 0 :=
  ⟨by decide +kernel, ⟨⟨rfl, .inr (by decide +kernel)⟩, by decide +kernel⟩, by decide +kernel,
    ⟨⟨rfl, .inr (by decide +kernel)⟩, by decide +kernel⟩, by decide +kernel⟩
/-- A CKPT at the end of a first rerun, of a second that agrees, and of one that does not. -/
def reran (n : Nat) (l : List (Word × Word)) : State :=
  on0 fun x => { x with act := .running, committing := true, ckpt := some { openCk n 0 [] with sigs := l } }
theorem witness_MarkAndCheckpointResults_rerun (n : Nat) (l : List (Word × Word)) :
    (reran n l).power = true ∧ (reran n l).me.committing = true ∧ (reran n l).me.mode = .u ∧ (reran n l).me.inten = true ∧
    (reran n l).me.act = .running ∧ (reran n l).me.ckpt = some { openCk n 0 [] with sigs := l } ∧ (reran n l).ctx.scyc = 0 ∧
    (openCk n 0 []).mid = false ∧ (openCk n 0 []).flagsIn = [] := by
  have h : (reran n l).me = { Core.reset with act := .running, committing := true, ckpt := some { openCk n 0 [] with sigs := l } } := by
    simp [reran, on0, State.me, State.core, vset, vget, State.reset]
  refine ⟨rfl, ?_⟩
  simp only [State.ctx, h]
  exact ⟨trivial, rfl, rfl, trivial, trivial, rfl, rfl, rfl⟩
theorem witness_VectorLanes_rows :
    let o := fun (i : Instr) (t : Tag) => rowOp i t
    (o (.visect g false (.s 1) (.tile 0) (.tile 1) (.s 2) 63 0) .int32).row + 1 =
      (rowRange (.visect g false (.s 1) (.tile 0) (.tile 1) (.s 2) 63 0)).2 ∧
    (o (.visect g false (.s 1) (.tile 0) (.tile 1) (.s 2) 62 1) .int32).row - 1 + 1 <
      (rowRange (.visect g false (.s 1) (.tile 0) (.tile 1) (.s 2) 62 1)).2 ∧
    (o (.vlsem g (.tile 2) (.tile 0) (.tile 1) 62 1) .fp32).row % 2 = 1 ∧ (o (.vqnt g (.tile 2) (.tile 0) .z .i8 .rne 63 0) .fp32).grp = 0 ∧
    (let s := onCtx fun x => { x with sf := ⟨some (o (.rcp g (.tile 2) (.tile 0) .rne 63 0) .fp32), []⟩ };
      (s.core 0).ctx.sf.cur = some (o (.rcp g (.tile 2) (.tile 0) .rne 63 0) .fp32)) ∧ (Rnd.rne ≠ .sr) := by decide +kernel
/-- Bobbin 0 of one slot, which has landed and operation 0 has claimed; bobbin 3 of one free slot at the scratchpad's end. -/
def loaded (code : Word) (f : Core → Core) : State :=
  let b : Bobbin := { Bobbin.unconfigured with v := true, cfg := (code <<< 19) ||| (6 <<< 25) ||| (6 <<< 29) ||| (6 <<< 34), slots := [(0, .landed)], claims := [⟨0, 0, false, false⟩] }
  on0 fun x => f { x with ctx := { x.ctx with
    bob := vset (vset (vset (vset x.ctx.bob 0 b) 1 b) 2 b) 3 { b with cfg := (6 <<< 25) ||| (6 <<< 29) ||| (6 <<< 34), loc := 0x1FC000, slots := [], claims := [] }
    tiles := vset x.ctx.tiles 7 { Tile.void with tag := .fp32, resid := 1 } } }
def mma0 : Instr := .mma g (.tile 7) (.b 0) (.b 1) .z .z false true 0
def mdrain0 : Instr := .mdrain g (.b 3) (.tile 7) .z .rne
theorem witness_ArrayEvents_results :
    (let s := loaded 7 fun x => { x with mxq := [opOf mma0] };
      (s.core 0).mx = none ∧ (s.core 0).mxq = opOf mma0 :: [] ∧ mxReady (s.core 0) (opOf mma0) = .yes ∧
      matMode ((s.core 0).ctx.bobbin 0) ((s.core 0).ctx.bobbin 1) = some .i8 ∧ ((s.core 0).ctx.tile 7).resid.getLsbD 0 = true) ∧
    (let s := loaded 3 id; matMode ((s.core 0).ctx.bobbin 0) ((s.core 0).ctx.bobbin 1) = some .f16 ∧
      mxReady (s.core 0) (opOf (.mmat g (.tile 7) (.b 0) (.b 1) .z .z false true 0)) = .yes ∧
      mxReady (s.core 0) (opOf (.mstep g (.tile 7) (.b 0) (.b 1) (.b 2) 31)) = .yes ∧
      mxReady (s.core 0) (opOf (.mfmt g (.tile 0) (.tile 7) .z .i32 .rne)) = .yes ∧
      mxReady (s.core 0) (opOf mdrain0) = .yes ∧ ((s.core 0).ctx.bobbin 3).fmt = some .f32) ∧
    (let y : MxRun := { runOf mdrain0 0 with rows := [(63, 5)] };
     let s := loaded 3 fun x => { x with mx := some y };
     let b := (s.core 0).ctx.bobbin 3;
      (s.core 0).mx = some y ∧ y.left = 0 ∧ y.step = 0 ∧ y.afl = 0 ∧ y.op.dead = false ∧ s.memOk = true ∧ (s.core 0).ckpt = none ∧
      (∀ n < b.cols, b.slotAddr y.op.slot + b.nibbleOf 63 n / 2 + 4 ≤ 0x200000) ∧ (s.core 0).ctx.dcol.getLsbD 63 = false ∧
      ∀ i < b.cols, ∀ j < i, b.slotAddr y.op.slot + b.nibbleOf 63 i / 2 + 4 ≤ b.slotAddr y.op.slot + b.nibbleOf 63 j / 2 ∨
        b.slotAddr y.op.slot + b.nibbleOf 63 j / 2 + 4 ≤ b.slotAddr y.op.slot + b.nibbleOf 63 i / 2) := by decide +kernel
/-- Row handles: a row of one byte, and eight of them that end at the scratchpad's end. -/
def rowsOf (base n : Nat) : HandleBits := BitVec.ofNat 256 (base + 7 * 2 ^ 64 + 2 ^ 70 + 2 ^ 96 + 2 ^ 121 + n * 2 ^ 150)
theorem witness_RowInstructionEffects_values :
    (let o := { opOf (.rcnt g false (.s 1) (.s 2) (.s 0) 1) with b := 4096 }; o.b.toNat ≤ 4096) ∧
    (let o := { opOf (.rpred g (.k 1) (.s 1) (.s 2) (.s 3) true 1 0) with a := 0, b := 0x1FFFFE, c := 1 };
      (on0 id).memOk = true ∧ ((on0 id).core 0).ckpt = none ∧ o.orig = none ∧ o.b.toNat + 2 * o.c.toNat ≤ 0x200000 ∧
      o.a.toNat + 4 * o.c.toNat ≤ o.b.toNat) ∧
    (let o := { opOf (.rcmp g (.k 3) (.h 4) (.h 5) (.s 10) 6 false .live 511) with ha := rowsOf 0 1, hb := rowsOf 0x1FFFF8 8, c := 0x1000 };
      o.runs ((on0 id).core 0) = true ∧ Handle.lvl o.ha = 0 ∧ Handle.lvl o.hb = 0 ∧ rowBytes o.hb = rowBytes o.ha ∧ Handle.size o.ha 1 = 1 ∧
      Handle.size o.hb 1 = 8 ∧ 0 + rowBytes o.ha ≤ 0x200000 ∧ (∀ r < 8, Handle.nibbleOf o.hb 0 r 0 0 / 2 = 0x1FFFF8 + r) ∧
      8 * (511 : BitVec 9).toNat + 8 * ((1 + 7) / 8) ≤ 4096) ∧
    (let o := { opOf (.rrst g (.k 3) (.h 4) (.h 5) (.s 10) 511) with ha := rowsOf 0 1, hb := rowsOf 0x1FFFF8 8, c := 1 };
      (o.c.extractLsb' 0 16).toNat ≤ Handle.size o.ha 1 ∧ (o.c.extractLsb' 0 16).toNat ≤ 4096 - 8 * (511 : BitVec 9).toNat) := by decide +kernel
theorem witness_RequestsAreSent_bytes :
    (let o := opOf (.kvapp g (.k 2) (.h 3) (.s 8) true); Plain (inTm o) o ∧ acceptedFrom (inTm o) 1 0 < 64) ∧
    Plain (inTm (opOf (.kvappGap g (.k 2) (.s 1) (.s 2) (.s 3) false))) (opOf (.kvappGap g (.k 2) (.s 1) (.s 2) (.s 3) false)) ∧
    Plain (inTm (opOf (.kvfill g (.k 1) (.s 2) (.s 3) (.s 4) false))) (opOf (.kvfill g (.k 1) (.s 2) (.s 3) (.s 4) false)) ∧
    (let o := { opOf (.attn g (.k 1) (.h 2) (.s 3) (.s 4) false) with ha := 0 }; Plain (inTm o) o ∧ (queryData (inTm o) o).2 = 0) ∧
    (let o := opOf (.opbpostDec g (.k 2) (.s 8) (.s 9)); Plain (inTm o) o ∧ o.part < 8 ∧ ((inTm o).part o.part).intake.length < 256) :=
  ⟨⟨plain_of _ _ (by decide +kernel), by decide +kernel⟩, plain_of _ _ (by decide +kernel), plain_of _ _ (by decide +kernel),
    ⟨plain_of _ _ (by decide +kernel), by decide +kernel⟩, ⟨plain_of _ _ (by decide +kernel), by decide +kernel⟩⟩
/-- Appends to slot 0, whose page list at 0x3000 names the page at 0x10000. -/
def appending (o : Op) : State :=
  { mapped id with
    cellars := vset State.reset.cellars 0 ⟨[o], [], []⟩
    parts := vset State.reset.parts 0 { Part.empty with set := true, desc := desc0 ||| (1 <<< 384) ||| (0x20000 <<< (8 * 192)) }
    mem := [(0x3002, 1)] }
def gap0 : Op :=
  { opOf (.kvappGap g (.k 2) (.s 1) (.s 2) (.s 3) false) with
    phase := .started, c := 1, data := leBytes 0x3000 8 ++ leBytes 0 2 ++ [7, 0, 5] ++ rep 0#8 19 ++ leBytes 0x20000 8 }
def attn0 : Op :=
  { opOf (.attn g (.k 1) (.h 2) (.s 3) (.s 4) false) with phase := .started, c := 0x1FFC00, ha := rowsOf 0 1, data := rep 0#8 292 }
theorem witness_CellarAndShuttleEvents_bytes :
    (let s := appending gap0; let e := AppendDesc.of gap0.data;
      Plain s gap0 ∧ (s.cellar 0).reqs = [gap0] ∧ (s.cellar 0).batches = [] ∧ cellarLets s 0 gap0 = true ∧ s.memOk = true ∧ e.ok = true ∧
      pageFmt e.fmt = some .i8 ∧ slotOwned s gap0.part 0 e.slot = true ∧ (lensOf s 0 e.slot).2 < 1048576 ∧
      (match pageBase s gap0.part 0 e.plist 0 with
        | .ok b => b == 0x10000 && (match startToken s gap0.part 0 b 0 .i8 e.hgc with | .ok _ => true | .error _ => false)
        | .error _ => false) = true) ∧
    (let s := appending attn0; Plain s attn0 ∧ (s.cellar 0).reqs = [attn0] ∧ cellarLets s 0 attn0 = true ∧ Handle.size attn0.ha 1 = 1 ∧
      attn0.c.toNat + 1024 ≤ 0x200000 ∧
      (match attnRow s attn0.part 0 (attn0.data.take 32) (pairOf (attn0.data.drop 32)) with
        | (s1, _, .ok b) => s1.memOk && b.length == 1024
        | _ => false) = true) ∧
    (∀ k < 8, mwf (0, 0) 0 ((cellared 7 acc0 []).cellar k).lens = true ∧
      ((cellared 7 acc0 []).cellar k).lens.all (fun e => decide (e.2.1 ≤ e.2.2) && decide (e.2.2 ≤ 1048576)) = true) :=
  ⟨⟨plain_of _ _ (by decide +kernel), by decide +kernel⟩, ⟨plain_of _ _ (by decide +kernel), by decide +kernel⟩, by decide +kernel⟩
/-- An item of one row of a byte, from the last byte open to U mode to the one before. -/
def copying1 : State :=
  { mapped (fun x => { x with taken := [cpyl0] }) with
    mem := putBytes [] (physAddr State.reset (.core 0) 0)
      (leBytes 0x1EFFFF 8 ++ leBytes 0x1EFFFE 8 ++ leBytes 0 16 ++ leBytes 1 4 ++ leBytes 1 4 ++ leBytes 0xFFFF00 4) }
theorem witness_CopyEngineEvents_item :
    copying1.memOk = true ∧ cpyl0.err = none ∧
    (match listEntry copying1 cpyl0 cpyl0.idx with
      | .ok e => e.ok && !e.rf && e.rows == 1 && e.len == 1 && decide (e.ss.lvl < 3) && decide (e.ds.lvl < 3) &&
          placeOf copying1 cpyl0 e.ss false e.src == .at (.core 0) 0x1EFFFF && placeOf copying1 cpyl0 e.ds true e.dst == .at (.core 0) 0x1EFFFE
      | .error _ => false) = true := by decide +kernel
/-- The module stopped at 110 °C, with a core's turn next and with nothing due. -/
theorem witness_ModuleEvents_hot :
    let s := fun l => { State.reset with agenda := l }
    (s []).power = true ∧ (s []).agenda = [] ∧ (s [.run 255]).agenda = .run 255 :: [] := by decide +kernel
/-- Bobbin 15 of one slot, free, and handle 1 of one byte; the slot landed for a store. -/
def fillable (n : Nat) : State :=
  onCtx fun x => { x with
    scyc := 1, h := vset x.h 1 (rowsOf 0x1000 1)
    bob := vset x.bob 15 { Bobbin.unconfigured with v := true, cfg := 7 <<< 19, cnt := n, slots := if n = 0 then [] else [(0, .landed)] } }
theorem witness_TileTransfersQueue_room :
    (fillable 0).me.committing = false ∧ ((fillable 0).ctx.bobbin 15).v = true ∧ issueFills 15 (.tld g (.b 15) (.h 1) .z (.k 1)) ≠ 0 ∧
    Acts (fillable 0) (.tld g (.b 15) (.h 1) .z (.k 1)) ∧ issueClaims 15 (.tst g (.k 1) (.h 1) .z (.b 15)) ≠ 0 ∧
    Acts (fillable 1) (.tst g (.k 1) (.h 1) .z (.b 15)) :=
  ⟨by decide +kernel, by decide +kernel, by decide +kernel, ⟨⟨rfl, .inr (by decide +kernel)⟩, by decide +kernel⟩, by decide +kernel,
    ⟨⟨rfl, .inr (by decide +kernel)⟩, by decide +kernel⟩⟩

end Sys2Proof.Tests
end

section
/-! The S class, R130: SEL's slot word, its source C and its result. -/

namespace Sys2Proof

/-! ## The fields of an encoded slot -/

/-- The fields of an encoded slot are those of the instruction's layout, with the stop bit (R28). -/
theorem ofBits_of_encodeSlot {stop : Bool} {i : Instr} {p : Nat} {w : SlotWord} (h : encodeSlot stop i = some (p, w)) :
    ∃ r, encodeRaw i = some (p, r) ∧ Raw.ofBits w = { r with stop := stop } := by
  obtain ⟨⟨q, r⟩, hr, hw⟩ := Option.map_eq_some_iff.mp h
  obtain ⟨rfl, rfl⟩ := Prod.mk.inj hw
  exact ⟨r, hr, Raw.ofBits_toBits _⟩

/-- The third source port is bits [25:18] of the slot, as of X (R37). -/
theorem Raw.c_ofBits (w : SlotWord) : (Raw.ofBits w).c = w.extractLsb' 18 8 := by
  apply BitVec.eq_of_getLsbD_eq; intro i hi
  simp [Raw.c, Raw.ofBits, hi]

/-- C is read back from an X that holds nothing but E and C (R37). -/
theorem ephemeral_or_c_extract (e : Bool) (c : Byte) : (xbit e 26 ||| xput c 18).extractLsb' 18 8 = c := by
  rw [BitVec.extractLsb'_or, xbit, xput_apart _ 26 18 8 (by omega), xput_same c 18 (by omega), BitVec.zero_or]

/-- SEL's layout (R130). -/
theorem encodeRaw_sel (u : Alu) (g : Guard) (e : Bool) (d a b c : Port) : encodeRaw (.sel u g e d a b c) =
    some (u.pos, ⟨false, 0x26#8, g.code, d.toByte, a.toByte, b.toByte, xbit e 26 ||| xput c.toByte 18⟩) := rfl

/-- A slot word of SEL holds the opcode 0x26 and the byte of its port C (R130). -/
theorem encodeSlot_sel_op_c {stop : Bool} {u : Alu} {g : Guard} {e : Bool} {d a b c : Port} {p : Nat} {w : SlotWord}
    (h : encodeSlot stop (.sel u g e d a b c) = some (p, w)) :
    w.extractLsb' 55 8 = 0x26#8 ∧ w.extractLsb' 18 8 = c.toByte := by
  obtain ⟨r, hr, hw⟩ := ofBits_of_encodeSlot h
  obtain ⟨-, rfl⟩ := Prod.mk.inj (Option.some.inj ((encodeRaw_sel ..).symm.trans hr))
  constructor
  · exact congrArg Raw.op hw
  · rw [← Raw.c_ofBits, hw]; exact ephemeral_or_c_extract e c.toByte

/-- A well-formed SEL takes an integer source as C (R130). -/
theorem okIsrc_of_sel_wf {u : Alu} {g : Guard} {e : Bool} {d a b c : Port} (h : (Instr.sel u g e d a b c).wf = true) :
    okIsrc c = true :=
  (Bool.and_eq_true_iff.mp h).2

namespace Machine

/-! ## Results of integer instructions -/

/-- An integer instruction that acts lands its value without flags: what it reads of the context is the same before its issue
and after, since issue changes no source port (R126). -/
theorem aluInt_acts {i : Instr} {s : State} (u : Alu) (lat : Nat) (e : Bool) (d : Port) (f : Ctx → Word) (h : Acts s i)
    (hf : f (issued s i).ctx = f s.ctx) : aluInt i u lat e d f s = .next (landing s i u lat e d (f s.ctx) 0) := by
  rw [aluInt, alu_acts i u lat e d _ s h, hf]; rfl

/-- SEL that acts lands, one cycle later, A where C is not 0 and B where it is (R130). -/
theorem exec_sel_acts {s : State} {u : Alu} {g : Guard} {e : Bool} {d a b c : Port} (h : Acts s (.sel u g e d a b c)) :
    exec (.sel u g e d a b c) s =
      .next (landing s (.sel u g e d a b c) u 1 e d (if s.ctx.val c ≠ 0 then s.ctx.val a else s.ctx.val b) 0) := by
  rw [exec_sel, execSel, aluInt_acts u 1 e d _ h (by simp only [issued_val])]

/-- Settles O19: the opcode and C from the slot's layout, C's kind from well-formedness, the result from the landing of an
integer instruction. -/
theorem selResult : Obligations.SelResult := by
  unfold Obligations.SelResult
  intro s u g e d a b c
  exact ⟨fun _ _ _ => encodeSlot_sel_op_c, okIsrc_of_sel_wf, exec_sel_acts⟩

end Machine
end Sys2Proof
end

section
/-! The matrix engine, R206: MZERO's format, its tag at issue, its array cycle and its tile at retirement. -/

namespace Sys2Proof

/-! ## Why a slot is illegal -/

/-- Four bits of X at bit 14 are those of the slot: X is its low end (R28). -/
theorem Raw.fmtField_ofBits (w : SlotWord) : (Raw.ofBits w).x.extractLsb' 14 4 = w.extractLsb' 14 4 := by
  apply BitVec.eq_of_getLsbD_eq; intro i hi
  simp [Raw.ofBits, hi]

/-- A slot is illegal, with this error among those found. -/
def Dec.HasError (d : Dec) (e : DecErr) : Prop := ∃ why i, d = .bad why i ∧ e ∈ why

/-- Any error found makes the slot illegal, with every error found. -/
theorem build_hasError {e : DecErr} {why : List DecErr} (h : e ∈ why) (i : Instr) : (build why i).HasError e := by
  refine ⟨why, some i, ?_, h⟩
  rw [build, if_neg]
  simpa using List.ne_nil_of_mem h

/-- MZERO takes the three formats of the array's accumulators (R206). -/
theorem okMzeroFmt_iff (f : Fmt) : okMzeroFmt f = true ↔ f = .f32 ∨ f = .f64 ∨ f = .i32 := by
  cases f <;> decide

/-- A well-formed MZERO has a format it takes. -/
theorem okMzeroFmt_of_mzero_wf {g : Guard} {d : Port} {f : Fmt} (h : (Instr.mzero g d f).wf = true) : okMzeroFmt f = true :=
  (Bool.and_eq_true_iff.mp h).2

/-- The codes of MZERO's formats are 0, 1 and 6 (R61, R206). -/
theorem code_of_okMzeroFmt {x : BitVec 4} {f : Fmt} (hx : Fmt.ofCode x = some f) (hf : okMzeroFmt f = true) : x = 0 ∨ x = 1 ∨ x = 6 := by
  revert x f; decide

/-- MZERO's slot with another code in FMT has the format error, whether the code is reserved or names a format it does not take. -/
theorem decodeX01_format {r : Raw} (g : Guard) (h0 : r.x.extractLsb' 14 4 ≠ 0) (h1 : r.x.extractLsb' 14 4 ≠ 1)
    (h6 : r.x.extractLsb' 14 4 ≠ 6) : (decodeX01 r g).HasError .format := by
  refine build_hasError ?_ _
  cases hx : Fmt.ofCode (r.x.extractLsb' 14 4) with
  | none => simp [mustBe]
  | some f =>
    have hf : okMzeroFmt f = false := Bool.eq_false_iff.mpr fun hf => by
      rcases code_of_okMzeroFmt hx hf with h | h | h <;> contradiction
    simp [mustBe, hf]

/-- The guard "never" leaves the other errors of a slot standing (R45). -/
theorem decodeRaw_hasError {r : Raw} {e : DecErr} (h : (decodeX r (Guard.ofCode r.g)).HasError e) : (decodeRaw 5 r).HasError e := by
  obtain ⟨why, i, hd, he⟩ := h
  by_cases hg : (Guard.ofCode r.g).wf = true
  · exact ⟨why, i, by simp [decodeRaw, hg, hd], he⟩
  · exact ⟨.never :: why, i, by simp [decodeRaw, hg, hd], List.mem_cons_of_mem _ he⟩

/-- A slot word of MZERO with another code in FMT decodes to the format error (R206). -/
theorem decodeSlot_mzero_format {w : SlotWord} (hop : w.extractLsb' 55 8 = 0x01) (h0 : w.extractLsb' 14 4 ≠ 0)
    (h1 : w.extractLsb' 14 4 ≠ 1) (h6 : w.extractLsb' 14 4 ≠ 6) : (decodeSlot 5 w).HasError .format := by
  have op : (Raw.ofBits w).op = 0x01#8 := hop
  rw [decodeSlot, if_neg (by rw [op]; decide)]
  apply decodeRaw_hasError
  have dec : decodeX (Raw.ofBits w) = decodeX01 (Raw.ofBits w) := by funext g; simp [decodeX, op]
  rw [dec]
  rw [← Raw.fmtField_ofBits] at h0 h1 h6
  exact decodeX01_format _ h0 h1 h6

namespace Machine

/-- Each error of an illegal slot is a condition of the bundle, with the slot's mask (R45). -/
theorem encodingFound_of_hasError {pos : Nat} {stop : Bool} {d : Dec} {e : DecErr} (h : d.HasError e) :
    ⟨slotted e.base, slotMask pos⟩ ∈ encodingFound [⟨pos, stop, d⟩] := by
  obtain ⟨why, i, rfl, he⟩ := h
  apply List.mem_append_left
  simpa using ⟨e, he, rfl⟩

/-! ## Tiles -/

@[simp] theorem Ctx.tile_modTile (x : Ctx) (i j : Nat) (f : Tile → Tile) :
    (x.modTile i f).tile j = if i = j ∧ i < 8 then f (x.tile i) else x.tile j := vget_vmod ..

/-- A tile that takes a tag has it, whether or not it is new to it (R201). -/
theorem Ctx.tag_mxTag (x : Ctx) {t : Nat} (h : t < 8) (tag : Tag) : ((x.mxTag t tag).tile t).tag = tag := by
  by_cases e : (x.tile t).tag = tag
  · rw [Ctx.mxTag, if_pos e, e]
  · simp [Ctx.mxTag, e, h]

/-- A retagged tile's rows are zero bits (R142). -/
theorem Tile.rows_retag (tag : Tag) {n : Nat} (h : n < 64) : vget (Tile.retag tag).rows n 0 = 0 := by
  simp [Tile.retag, Tile.void, vget, h]

/-! ## MZERO (R206) -/

/-- MZERO issues into mx's queue, with its tile's tag the one of its format. -/
theorem ctx_mxIssue_mzero {s : State} (h : s.cur < 256) (g : Guard) (d : Port) (fmt : Fmt) :
    (mxIssue (.mzero g d fmt) 0 0 0 0 s).ctx = s.ctx.mxTag (tOf d) (Tag.ofFmt fmt) := by
  simp only [mxIssue, submit, State.ctx, State.me_modMe _ _ h]; rfl

/-- After an MZERO that acts its tile has the tag of its format. -/
theorem exec_mzero_tag {s : State} {g : Guard} {r : Fin 8} {fmt : Fmt} (ha : Acts s (.mzero g (.tile r) fmt)) (hc : s.cur < 256) :
    ∃ t, exec (.mzero g (.tile r) fmt) s = .next t ∧ t.ctx.tagOf (.tile r) = Tag.ofFmt fmt := by
  refine ⟨_, by rw [exec_mzero, execMzero, issue_acts _ _ _ _ ha], ?_⟩
  change ((mxIssue (.mzero g (.tile r) fmt) 0 0 0 0 (issued s _)).ctx.tile r.val).tag = _
  rw [ctx_mxIssue_mzero (by rw [issued_cur]; exact hc)]
  exact Ctx.tag_mxTag _ r.isLt _

/-- The array takes an MZERO for one cycle, with no rows to compute. -/
theorem mxBegin_mzero {o : Op} {g : Guard} {d : Port} {fmt : Fmt} (h : o.ins = .mzero g d fmt) (s : State) (c : Nat) :
    mxBegin s c o = s.modCore c fun x => { x with mx := some ⟨o, 1, 0, 0, [], 0#8⟩, mxq := x.mxq.tail } := by
  simp only [mxBegin, h]

/-- An MZERO whose array cycle has passed is done: it has no steps. -/
theorem mxDone_mzero {x : Core} {y : MxRun} {g : Guard} {d : Port} {fmt : Fmt} (hu : x.mode = .u) (hx : x.mx = some y)
    (hi : y.op.ins = .mzero g d fmt) (hl : y.left = 0) (hs : y.step = 0) : mxDone x = some y := by
  simp [mxDone, stepEnded, hx, hu, hi, hl, hs]

/-- A retiring MZERO retags its tile with the tag the tile has, and leaves the array; nothing else of its core changes. -/
theorem core_mxRetire_mzero {s : State} {c : Nat} {y : MxRun} {g : Guard} {d : Port} {fmt : Fmt} (hc : c < 256)
    (hd : mxDone (s.core c) = some y) (hi : y.op.ins = .mzero g d fmt) (hf : y.afl = 0) :
    (mxRetire s c).core c =
      { s.core c with mx := none, ctx := (s.core c).ctx.modTile (tOf d) fun t => Tile.retag t.tag } := by
  simp [mxRetire, hd, hi, hf, hc, Ctx.mxWrite, Ctx.mxRelease, mxClaims, writesMxY, deliverFlags]

/-- Settles O41: the format from the decoder, the tag from issue, the cycle from the start, the tile from retirement. -/
theorem mzeroResult : Obligations.MzeroResult := by
  unfold Obligations.MzeroResult
  refine ⟨fun s g r fmt ha hc => ?_, fun g d fmt h32 h64 hi32 => ?_, fun w stop hop h0 h1 h6 => ?_,
    fun s c o g r fmt ho hc y hy => ?_, fun s c y g r fmt hp hc hu hx hi hl hs hf => ?_⟩
  · obtain ⟨t, ht, htag⟩ := exec_mzero_tag ha hc
    exact ⟨t, ht, fun h => by rw [htag, h]; rfl, fun h => by rw [htag, h]; rfl, fun h => by rw [htag, h]; rfl⟩
  · refine Bool.eq_false_iff.mpr fun hw => ?_
    rcases (okMzeroFmt_iff fmt).mp (okMzeroFmt_of_mzero_wf hw) with h | h | h <;> contradiction
  · have hd := decodeSlot_mzero_format hop h0 h1 h6
    exact ⟨hd, _, encodingFound_of_hasError hd, by decide, by decide⟩
  · rw [mxBegin_mzero ho, State.core_modCore, if_pos ⟨rfl, hc⟩] at hy
    cases hy; exact ⟨rfl, rfl⟩
  · refine ⟨mxRetire s c, by rw [exec_mxOperationRetire, execMxOperationRetire, event_power s _ hp], ?_⟩
    rw [core_mxRetire_mzero hc (mxDone_mzero hu hx hi hl hs) hi hf]
    have tile : ((s.core c).ctx.modTile r.val fun t => Tile.retag t.tag).tile r.val = Tile.retag ((s.core c).ctx.tile r.val).tag := by
      rw [Ctx.tile_modTile, if_pos ⟨rfl, r.isLt⟩]
    refine ⟨rfl, rfl, fun n hn => ?_, congrArg Tile.resid tile, (congrArg Tile.tag tile).trans rfl⟩
    exact (congrArg (vget ·.rows n 0) tile).trans (Tile.rows_retag _ hn)

end Machine
end Sys2Proof
end

section
/-! The synchronisation instructions, R285: the flag WAITQ takes, what its group meets at its issue, and its effect. -/

namespace Sys2Proof.Machine

/-! ## Numbers and fields -/

/-- `upFrom` from 0 is the library's range. -/
theorem upFrom_zero (n : Nat) : upFrom 0 n = List.range n := by
  suffices h : ∀ lo, upFrom lo n = List.range' lo n by rw [h, List.range_eq_range']
  induction n with
  | zero => exact fun _ => rfl
  | succ n ih => intro lo; rw [upFrom, ih, List.range'_succ]

/-- The bits of a word's low field are the word's. -/
theorem testBit_bvField_low {n : Nat} (x : BitVec n) (w k : Nat) : (bvField x 0 w).testBit k = (decide (k < w) && x.getLsbD k) := by
  rw [bvField, BitVec.testBit_toNat, BitVec.getLsbD_extractLsb', Nat.zero_add]

/-- A word's low field is 0 where none of its bits is set. -/
theorem bvField_low_eq_zero {n : Nat} {x : BitVec n} {w : Nat} : bvField x 0 w = 0 ↔ ∀ k < w, x.getLsbD k = false := by
  constructor
  · intro h k hk
    simpa [h, hk] using testBit_bvField_low x w k
  · intro h
    refine Nat.eq_of_testBit_eq fun k => ?_
    rw [testBit_bvField_low, Nat.zero_testBit, Bool.and_eq_false_imp]
    exact fun hk => h k (of_decide_eq_true hk)

/-- A set bit of a word's low field makes the field not 0. -/
theorem bvField_low_ne_zero {n : Nat} {x : BitVec n} {w k : Nat} (hk : k < w) (hx : x.getLsbD k = true) : bvField x 0 w ≠ 0 :=
  fun h => Bool.false_ne_true ((bvField_low_eq_zero.mp h k hk).symm.trans hx)

/-! ## The lowest code (R44) -/

/-- The condition chosen has a code no greater than any condition's. -/
theorem minFound_le {f : Found} {l : List Found} (h : f ∈ l) : ∃ g, minFound l = some g ∧ g.code ≤ f.code := by
  induction l with
  | nil => cases h
  | cons a r ih =>
    simp only [minFound]
    cases hr : minFound r with
    | none =>
      rcases List.mem_cons.mp h with rfl | h
      · exact ⟨f, rfl, Nat.le_refl _⟩
      · obtain ⟨g, hg, -⟩ := ih h
        rw [hr] at hg; cases hg
    | some b =>
      have hb : f ∈ r → b.code ≤ f.code := fun h => by
        obtain ⟨g, hg, hle⟩ := ih h
        rw [hr] at hg; cases hg; exact hle
      by_cases hba : b.code < a.code
      · refine ⟨b, if_pos hba, ?_⟩
        rcases List.mem_cons.mp h with rfl | h
        · exact Nat.le_of_lt hba
        · exact hb h
      · refine ⟨a, if_neg hba, ?_⟩
        rcases List.mem_cons.mp h with rfl | h
        · exact Nat.le_refl _
        · exact Nat.le_trans (Nat.le_of_not_lt hba) (hb h)

/-- A code without a slot number is that of its cause, whatever conditions it is joined with. -/
theorem code_joinFound {f : Found} (h : f.cause.bySlot = false) (l : List Found) : (joinFound l f).code = f.cause.base := by
  simp [joinFound, Found.code, h]

/-- Where a condition without a slot number is found, the code taken is at most its own. -/
theorem lowest_le {f : Found} {l : List Found} (h : f ∈ l) (hs : f.cause.bySlot = false) :
    ∃ e, lowest l = some e ∧ e.cause ≤ f.cause.base := by
  obtain ⟨g, hg, hle⟩ := minFound_le (List.mem_map_of_mem (f := joinFound l) h)
  refine ⟨_, by rw [lowest, hg]; rfl, ?_⟩
  rwa [code_joinFound hs] at hle

/-- A condition found alone, without a slot number, gives its own code. -/
theorem lowest_singleton (n : Nat) (m : BitVec 8) : ∃ e, lowest [⟨plain n, m⟩] = some e ∧ e.cause = n :=
  ⟨_, rfl, rfl⟩

/-! ## A bundle of one slot (R34, R44) -/

/-- A slot whose register values have all been delivered, and which finds a cause without a slot number, traps with that code or a
lower one. -/
theorem loneVerdict_trap_le {s : State} {i : Instr} {k : Cause} (hw : valueWaits s s.cur i = []) (hk : k ∈ ownCauses s s.cur i)
    (hs : k.bySlot = false) : ∃ h, loneVerdict s i = .trap h ∧ h.cause ≤ k.base := by
  have hm : (⟨k, slotMask (posOf i)⟩ : Found) ∈ groupsFound s.me [[i]] ++ groupFound s s.cur [i] := by
    refine List.mem_append_right _ ?_
    rw [groupFound, List.flatMap_singleton]
    exact List.mem_map_of_mem hk
  obtain ⟨e, he, hle⟩ := lowest_le hm hs
  refine ⟨e, ?_, hle⟩
  simp [loneVerdict, groupVerdict, hw, he]

/-- A slot that has a reason to wait does not issue. -/
theorem loneVerdict_ne_go {s : State} {i : Instr} (h : slotWaits s s.cur i ≠ []) : loneVerdict s i ≠ .go := by
  simp only [loneVerdict, groupVerdict]
  split
  · nofun
  · split
    · nofun
    · next hw => exact absurd (by simpa using (List.append_eq_nil_iff.mp hw).2) h

/-- Nothing keeps a bundle of one slot from issuing but the causes and the waits of the slot itself: its bundle passes the checks
made before the first group, no register value is still to be delivered, the array does not stall, its bobbins have room, its scalar
bank is not being refreshed, and it waits for no domain. -/
structure Unhindered (s : State) (i : Instr) : Prop where
  bundle : groupsFound s.me [[i]] = []
  values : valueWaits s s.cur i = []
  stall : mxStall s.me = []
  room : groupWaits s.me [i] = []
  bank : refreshHit s.me [i] = false
  domain : syncLevel s.me [i] = none

/-- What an unhindered slot meets is decided by its own causes. -/
theorem Unhindered.trap {s : State} {i : Instr} {n : Nat} (h : Unhindered s i) (hc : ownCauses s s.cur i = [plain n]) :
    ∃ e, loneVerdict s i = .trap e ∧ e.cause = n := by
  obtain ⟨e, he, hn⟩ := lowest_singleton n (slotMask (posOf i))
  refine ⟨e, ?_, hn⟩
  simp [loneVerdict, groupVerdict, groupFound, foundAt, h.bundle, h.values, hc, he]

/-- An unhindered slot without a cause is held for its first reason to wait. -/
theorem Unhindered.hold {s : State} {i : Instr} {r : Nat} {l : List Nat} (h : Unhindered s i) (hc : ownCauses s s.cur i = [])
    (hw : slotWaits s s.cur i = r :: l) : loneVerdict s i = .hold r := by
  have stall : mxStall (s.core s.cur) = [] := h.stall
  have room : groupWaits (s.core s.cur) [i] = [] := h.room
  simp [loneVerdict, groupVerdict, groupFound, foundAt, lowest, minFound, h.bundle, h.values, hc, hw, stall, room]

/-- An unhindered slot without a cause or a reason to wait issues. -/
theorem Unhindered.go {s : State} {i : Instr} (h : Unhindered s i) (hc : ownCauses s s.cur i = []) (hw : slotWaits s s.cur i = []) :
    loneVerdict s i = .go := by
  have stall : mxStall (s.core s.cur) = [] := h.stall
  have room : groupWaits (s.core s.cur) [i] = [] := h.room
  have bank : refreshHit (s.core s.cur) [i] = false := h.bank
  have domain : syncLevel (s.core s.cur) [i] = none := h.domain
  simp [loneVerdict, groupVerdict, groupFound, foundAt, lowest, minFound, h.bundle, h.values, hc, hw, stall, room, bank, domain]

/-! ## Engines at rest -/

/-- With no requests at the cellars and none of the core's own, nothing will write tm.y. -/
theorem tmPending_eq_nil {s : State} {c : Nat} (ht : (s.core c).tm = []) (hr : (s.core c).rowRun = none)
    (hk : ∀ k < 8, (s.cellar k).reqs = []) : tmPending s c = [] := by
  have reqs : ∀ q ∈ s.cellars.toList, q.reqs = [] := by
    intro q hq
    obtain ⟨k, hk8, rfl⟩ := Vector.mem_iff_getElem.mp (Vector.mem_toList_iff.mp hq)
    simpa [State.cellar, vget, hk8] using hk k hk8
  have served : (s.cellars.toList.flatMap fun k => k.reqs.filter fun o => o.core == c && o.ctag == (s.core c).ctag) = [] :=
    List.flatMap_eq_nil_iff.mpr fun q hq => by rw [reqs q hq, List.filter_nil]
  simp only [tmPending, ht, hr, served]; rfl

/-- With no ATOM pending nothing waits for one. -/
theorem waitsAtom_eq_false {x : Core} (h : x.ag = []) (i : Instr) : waitsAtom x i = false := by
  simp only [waitsAtom, h, List.filter_nil, List.isEmpty_nil, Bool.not_true, Bool.false_and]
  cases slotInfo i <;> rfl

/-- An empty array does not stall. -/
theorem mxStall_eq_nil {x : Core} (hm : x.mx = none) (hq : x.mxq = []) : mxStall x = [] := by
  rw [mxStall, hm, hq]

/-- A cycle that is no multiple of 64 refreshes no bank (R115). -/
theorem refreshHit_eq_false {x : Core} (h : x.ctx.scyc.toNat % 64 ≠ 0) (l : List Instr) : refreshHit x l = false := by
  rw [refreshHit, refreshBank, if_neg h]

/-- Without ephemeral copies no register has expired, and without AFL.TORNCHK no torn read traps (R118, R173). -/
theorem registerCauses_eq_nil {x : Ctx} (he : ∀ r : Fin 64, vget x.eph r.val none = none) (ha : x.afl.getLsbD 18 = false)
    (i : Instr) : registerCauses x i = [] := by
  have expired : readsExpired x i = false := by
    rw [readsExpired]
    split
    · refine List.any_eq_false.mpr fun p _ => ?_
      cases p <;> simp [Ctx.expired, he]
    · rfl
  rw [registerCauses, expired, ha, Bool.and_false, Bool.false_and]; rfl

/-! ## WAITQ's own checks (R285) -/

/-- WAITQ reads its mask alone and writes D alone. -/
theorem slotInfo_waitq (g : Guard) (e : Bool) (d a : Port) : slotInfo (.waitq g e d a) = some ⟨7, .sy, g, [a], [d], true⟩ := rfl

/-- The reads of one slot with one source port are within a file's budget. -/
theorem overBudget_single {f : SlotInfo} {p : Port} (hf : f.srcs = [p]) (kind : Port → Bool) {budget : Nat} (hb : 1 ≤ budget)
    (code : Nat) (m : BitVec 8) : overBudget [f] kind budget code 0 m = [] := by
  rw [overBudget, if_pos]
  cases h : kind p <;> simp [hf, h, distinct, hb]

/-- Distinct elements are no more than the list's. -/
theorem length_distinct_le (l : List Port) : (distinct l).length ≤ l.length := by
  induction l with
  | nil => exact Nat.le_refl _
  | cons p r ih =>
    rw [distinct]
    split
    · exact Nat.le_succ_of_le ih
    · exact Nat.succ_le_succ ih

/-- One source and two ports are within every budget of R41. -/
theorem budgetFound_waitq (g : Guard) (e : Bool) (d a : Port) : budgetFound [.waitq g e d a] = [] := by
  have src : (SlotInfo.mk 7 .sy g [a] [d] true).srcs = [a] := rfl
  have one {α : Type} (p : α → Bool) (x : α) : ([x].filter p).length ≤ 1 := List.length_filter_le ..
  have users (p : SlotInfo → Bool) (x : SlotInfo) : ([x].filter p).length ≤ 3 := Nat.le_trans (one p x) (by decide)
  have bobbins (p : Port → Bool) : (distinct ([a].filter p ++ [d].filter p)).length ≤ 3 := by
    have h := length_distinct_le ([a].filter p ++ [d].filter p)
    have ha := one p a
    have hd := one p d
    rw [List.length_append] at h
    omega
  simp [budgetFound, slotInfo_waitq, bsetReads, isBset, overBudget_single src, users, bobbins, one, movePorts]

/-- Alone in its bundle, WAITQ passes the checks made before the first group, outside a delay slot. -/
theorem groupsFound_waitq {x : Core} (h : x.ctx.seq.dsc = 0) (g : Guard) (e : Bool) (d a : Port) :
    groupsFound x [[.waitq g e d a]] = [] := by
  have tags : tagCauses x.ctx (.waitq g e d a) = [] := rfl
  have handles : handleCauses x (.waitq g e d a) = [] := rfl
  have place : placeFound x.ctx.seq [.waitq g e d a] = [] := by simp [placeFound, h, isTransferOrSetup]
  simp [groupsFound, budgetFound_waitq, dependFound, destFound, pairs, slotInfo_waitq, place, tags, handles, foundAt]

/-- The one cause that WAITQ finds of its own, in U mode, is an empty mask (R285). -/
theorem ownCauses_waitq {s : State} {c : Nat} {g : Guard} {e : Bool} {d a : Port} (hu : (s.core c).mode = .u)
    (hr : registerCauses (s.core c).ctx (.waitq g e d a) = []) :
    ownCauses s c (.waitq g e d a) = need (bvField ((s.core c).ctx.val a) 0 32 != 0) (plain 0x0E4) := by
  have tags : tagCauses (s.core c).ctx (.waitq g e d a) = [] := rfl
  have handles : handleCauses (s.core c) (.waitq g e d a) = [] := rfl
  have units : unitCauses (s.core c).ctx (.waitq g e d a) = [] := rfl
  have tiles : tileCausesT s c (.waitq g e d a) = [] := rfl
  have sequencer : sequencerCauses (s.core c).ctx (.waitq g e d a) = [] := by unfold sequencerCauses; split <;> rfl
  have system : systemCauses (s.core c) (.waitq g e d a) = [] := by unfold systemCauses; rw [hu]; rfl
  rw [ownCauses, tags, handles, units, tiles, sequencer, system, hr, List.append_nil, List.append_nil, List.append_nil,
    List.append_nil]
  rfl

/-- An empty mask is a cause of WAITQ's in every mode (R285). -/
theorem mem_ownCauses_waitq {s : State} {c : Nat} {a : Port} (h : bvField ((s.core c).ctx.val a) 0 32 = 0) (g : Guard) (e : Bool)
    (d : Port) : plain 0x0E4 ∈ ownCauses s c (.waitq g e d a) := by
  have mem : memCauses s c (.waitq g e d a) = need (bvField ((s.core c).ctx.val a) 0 32 != 0) (plain 0x0E4) := rfl
  have found : plain 0x0E4 ∈ memCauses s c (.waitq g e d a) := by simp [mem, h, need]
  simp only [ownCauses, List.mem_append, found, true_or, or_true]

/-- The only reason of its own that WAITQ has to wait is that no flag of its mask is at least 1 (R285). -/
theorem memWaits_waitq (x : Core) (g : Guard) (e : Bool) (d a : Port) : memWaits x (.waitq g e d a) =
    if x.ctx.guard g && bvField (x.ctx.val a) 0 32 != 0 && (waitqFlag x.ctx (bvField (x.ctx.val a) 0 32)).isNone then [3] else [] := by
  have fence : fenceHolds (.waitq g e d a) = false := rfl
  have ag : entersAg (.waitq g e d a) = false := rfl
  have ce : entersCe (.waitq g e d a) = false := rfl
  unfold memWaits
  simp only [fence, ag, ce, Bool.and_false, Bool.false_and]
  rfl

/-- WAITQ waits for values that are still to be delivered, and for a flag of its mask (R285). -/
theorem slotWaits_waitq (s : State) (c : Nat) (g : Guard) (e : Bool) (d a : Port) :
    slotWaits s c (.waitq g e d a) = valueWaits s c (.waitq g e d a) ++ memWaits (s.core c) (.waitq g e d a) := by
  have unit : unitWaits (s.core c) (.waitq g e d a) = [] := by
    have mx : isMxOp (.waitq g e d a) = false := rfl
    unfold unitWaits
    simp [slotInfo_waitq, mx]
  have tile : tileWaits s c (.waitq g e d a) = [] := by
    have tm : entersTm (.waitq g e d a) = false := by rw [entersTm, slotInfo_waitq]; rfl
    unfold tileWaits
    simp only [tm, Bool.and_false, Bool.false_and]
    rfl
  rw [slotWaits, unit, tile, List.append_nil, List.append_nil]

/-- A slot that claims and reserves no slots of a bobbin does not wait for its room. -/
theorem bobbinWait_single {b : Nat} {i : Instr} (hc : issueClaims b i = 0) (hf : issueFills b i = 0) (hb : claimsBob b i = false)
    (x : Core) : bobbinWait x [i] b = false := by
  cases hg : x.ctx.guard (guardOf i) <;> simp [bobbinWait, List.filter, hg, hc, hf, hb]

/-- WAITQ claims and reserves no slots. -/
theorem groupWaits_waitq (x : Core) (g : Guard) (e : Bool) (d a : Port) : groupWaits x [.waitq g e d a] = [] := by
  rw [groupWaits, if_neg]
  rw [List.any_eq_true]
  rintro ⟨b, -, h⟩
  rw [bobbinWait_single rfl rfl rfl] at h
  cases h

/-- The values WAITQ reads are there once the core's units have nothing to deliver. -/
theorem valueWaits_waitq {s : State} {c : Nat} (hm : (s.core c).mxOps = []) (ht : tmPending s c = []) (ha : (s.core c).ag = [])
    (g : Guard) (e : Bool) (d a : Port) : valueWaits s c (.waitq g e d a) = [] := by
  simp [valueWaits, slotInfo_waitq, hm, ht, waitsAtom_eq_false ha]

/-! ## The flag WAITQ takes (R285) -/

/-- The bit of a flag in WAITQ's mask, for the flags there are. -/
theorem testBit_mask {m : Word} {k : Nat} (h : k < 32) : (bvField m 0 32).testBit k = m.getLsbD k := by
  rw [testBit_bvField_low, decide_eq_true h, Bool.true_and]

/-- WAITQ passes over a flag that its mask does not name or that is 0. -/
theorem passed_over_iff {x : Ctx} {m : Word} {k : Nat} (h : k < 32) :
    (!((bvField m 0 32).testBit k && decide (1 ≤ x.flagVal k))) = true ↔ (m.getLsbD k = true → x.flagVal k = 0) := by
  rw [testBit_mask h]
  cases m.getLsbD k <;> simp

/-- WAITQ takes no flag where every flag of the mask is 0. -/
theorem waitqFlag_eq_none_iff {x : Ctx} {m : Word} :
    waitqFlag x (bvField m 0 32) = none ↔ ∀ k < 32, m.getLsbD k = true → x.flagVal k = 0 := by
  rw [waitqFlag, upFrom_zero, List.find?_range_eq_none]
  exact forall₂_congr fun k hk => passed_over_iff hk

/-- WAITQ takes the lowest flag of the mask that is at least 1. -/
theorem waitqFlag_eq_some {x : Ctx} {m : Word} {f : Nat} (hf : f < 32) (hm : m.getLsbD f = true) (h1 : 1 ≤ x.flagVal f)
    (hlow : ∀ k < f, m.getLsbD k = true → x.flagVal k = 0) : waitqFlag x (bvField m 0 32) = some f := by
  rw [waitqFlag, upFrom_zero, List.find?_range_eq_some]
  refine ⟨by simp [testBit_mask hf, hm, h1], List.mem_range.mpr hf, fun k hk => ?_⟩
  exact (passed_over_iff (Nat.lt_trans hk hf)).mpr (hlow k hk)

/-- What the issue cycle notes before the effect does not change which flag WAITQ takes. -/
theorem waitqFlag_issued (s : State) (i : Instr) (m : Nat) : waitqFlag (issued s i).ctx m = waitqFlag s.ctx m := by
  simp only [waitqFlag, issued_flagVal]

/-! ## What WAITQ's group meets (R285) -/

/-- A true guard, a mask that is not empty and no flag of it at least 1 make WAITQ wait. -/
theorem memWaits_waitq_held {x : Core} {g : Guard} {a : Port} (hg : x.ctx.guard g = true) (hm : bvField (x.ctx.val a) 0 32 ≠ 0)
    (h0 : ∀ k < 32, (x.ctx.val a).getLsbD k = true → x.ctx.flagVal k = 0) (e : Bool) (d : Port) :
    memWaits x (.waitq g e d a) = [3] := by
  simp [memWaits_waitq, hg, hm, waitqFlag_eq_none_iff.mpr h0]

/-- A flag of the mask that is at least 1 lets WAITQ go. -/
theorem memWaits_waitq_free {x : Core} {a : Port} {k : Nat} (hk : k < 32) (hm : (x.ctx.val a).getLsbD k = true)
    (h1 : 1 ≤ x.ctx.flagVal k) (g : Guard) (e : Bool) (d : Port) : memWaits x (.waitq g e d a) = [] := by
  have flag : (waitqFlag x.ctx (bvField (x.ctx.val a) 0 32)).isNone = false := by
    refine Bool.eq_false_iff.mpr fun h => ?_
    have h0 := waitqFlag_eq_none_iff.mp (Option.isNone_iff_eq_none.mp h) k hk hm
    omega
  simp [memWaits_waitq, flag]

/-- An empty mask traps, once the mask has been delivered. -/
theorem loneVerdict_waitq_empty {s : State} {g : Guard} {e : Bool} {d a : Port} (hw : valueWaits s s.cur (.waitq g e d a) = [])
    (h : ∀ k < 32, (s.ctx.val a).getLsbD k = false) : ∃ t, loneVerdict s (.waitq g e d a) = .trap t ∧ t.cause ≤ 0x0E4 :=
  loneVerdict_trap_le hw (mem_ownCauses_waitq (bvField_low_eq_zero.mpr h) g e d) rfl

/-- With every flag of the mask 0 the group does not issue: it waits for the mask's value, traps for an empty mask, or waits for a
flag. -/
theorem loneVerdict_waitq_ne_go {s : State} {g : Guard} {e : Bool} {d a : Port} (hg : s.ctx.guard g = true)
    (h0 : ∀ k < 32, (s.ctx.val a).getLsbD k = true → s.ctx.flagVal k = 0) : loneVerdict s (.waitq g e d a) ≠ .go := by
  by_cases hw : valueWaits s s.cur (.waitq g e d a) = []
  · by_cases hm : bvField (s.ctx.val a) 0 32 = 0
    · obtain ⟨t, ht, -⟩ := loneVerdict_waitq_empty hw (bvField_low_eq_zero.mp hm)
      rw [ht]; nofun
    · have flag : memWaits (s.core s.cur) (.waitq g e d a) = [3] := memWaits_waitq_held hg hm h0 e d
      refine loneVerdict_ne_go ?_
      rw [slotWaits_waitq, flag]
      exact List.append_ne_nil_of_right_ne_nil _ (List.cons_ne_nil _ _)
  · refine loneVerdict_ne_go ?_
    rw [slotWaits_waitq]
    exact List.append_ne_nil_of_left_ne_nil hw _

/-- Outside a delay slot, in a cycle that refreshes no bank, and with the core's engines at rest, nothing but WAITQ's own checks
keeps its group from issuing. -/
theorem unhindered_waitq {s : State} (hd : s.ctx.seq.dsc = 0) (hc : s.ctx.scyc.toNat % 64 ≠ 0) (hm : s.me.mx = none)
    (hq : s.me.mxq = []) (ht : s.me.tm = []) (hr : s.me.rowRun = none) (ha : s.me.ag = []) (hk : ∀ k < 8, (s.cellar k).reqs = [])
    (g : Guard) (e : Bool) (d a : Port) : Unhindered s (.waitq g e d a) where
  bundle := groupsFound_waitq hd g e d a
  values :=
    have idle : (s.core s.cur).mxOps = [] := by simp only [State.me] at hm hq; simp [Core.mxOps, hm, hq]
    valueWaits_waitq idle (tmPending_eq_nil ht hr hk) ha g e d a
  stall := mxStall_eq_nil hm hq
  room := groupWaits_waitq s.me g e d a
  bank := refreshHit_eq_false hc _
  domain := rfl

/-! ## WAITQ's effect (R285) -/

/-- A change of the context is what it makes of the context as it stands. -/
theorem State.modMyCtx_congr {s : State} {f f' : Ctx → Ctx} (h : f s.ctx = f' s.ctx) : s.modMyCtx f = s.modMyCtx f' :=
  congrArg (fun x => s.setCore s.cur { s.me with ctx := x }) h

/-- A result in flight leaves the flags as they were. -/
theorem State.result_flagVal (s : State) (u : Unit') (n l : Nat) (e : Bool) (d : Port) (v : Word) (w : FlagSet) (f : Nat) :
    (s.result u n l e d v w).ctx.flagVal f = s.ctx.flagVal f := by
  simp only [State.result, State.ctx, State.me, State.modMyCtx, State.core_modCtx]
  split <;> rfl

/-- WAITQ that acts lowers the flag it takes by 1 and returns its number (R285). -/
theorem exec_waitq_acts {s : State} {g : Guard} {e : Bool} {d a : Port} {f : Nat} (h : Acts s (.waitq g e d a))
    (hf : waitqFlag s.ctx (bvField (s.ctx.val a) 0 32) = some f) :
    exec (.waitq g e d a) s = .next (acted s (.waitq g e d a) fun t => (t.result .sy 7 1 e d (BitVec.ofNat 64 f) 0).modMyCtx fun x =>
      { x with k := vset x.k f (BitVec.ofNat 20 (s.ctx.flagVal f - 1)) }) := by
  rw [exec_waitq, execWaitq, issue_acts _ _ _ _ h, acted, acted, issued_val, waitqFlag_issued, hf]
  refine congrArg (fun t => Host.Outcome.next (used t)) (State.modMyCtx_congr ?_)
  simp only [Ctx.lower, syResult, State.result_flagVal, issued_flagVal]

/-- Settles O33: the trap and the waits from the causes and waits of WAITQ's group, the effect from the flag it takes. -/
theorem waitqResult : Obligations.WaitqResult := by
  unfold Obligations.WaitqResult
  intro s g e d a f
  refine ⟨fun _ h0 hw => loneVerdict_waitq_empty hw h0, loneVerdict_waitq_ne_go, ?_,
    fun h hf hm h1 hlow => exec_waitq_acts h (waitqFlag_eq_some hf hm h1 hlow)⟩
  intro hg _ _ hu hd hc hafl _ heph hmx hq ht hr ha hk
  have free := unhindered_waitq hd hc hmx hq ht hr ha hk g e d a
  have own : ownCauses s s.cur (.waitq g e d a) = need (bvField (s.ctx.val a) 0 32 != 0) (plain 0x0E4) :=
    ownCauses_waitq hu (registerCauses_eq_nil heph hafl _)
  have waits := slotWaits_waitq s s.cur g e d a
  rw [free.values, List.nil_append] at waits
  have named {k : Nat} (hk : k < 32) (hm : (s.ctx.val a).getLsbD k = true) : ownCauses s s.cur (.waitq g e d a) = [] := by
    rw [own, need, bne_iff_ne.mpr (bvField_low_ne_zero hk hm)]; rfl
  refine ⟨fun h0 => free.trap ?_, ?_, fun k hk hm h1 => ?_⟩
  · rw [own, bvField_low_eq_zero.mpr h0]; rfl
  · rintro ⟨k, hk, hm⟩ h0
    exact free.hold (named hk hm) (waits.trans (memWaits_waitq_held hg (bvField_low_ne_zero hk hm) h0 e d))
  · exact free.go (named hk hm) (waits.trans (memWaits_waitq_free hk hm h1 g e d))

end Sys2Proof.Machine
end

section
/-! The domain register, R373: what SETDMR sets in flight, and the fields of DMR that its write reaches. -/

namespace Sys2Proof.Machine

/-! ## Issue -/

/-- The issue of an instruction leaves DMR as it stood. -/
theorem issued_dmr (s : State) (i : Instr) : (issued s i).ctx.dmr = s.ctx.dmr := by
  obtain ⟨a, h⟩ := issued_ctx s i
  rw [h]

/-- SETDMR that acts sets DMR as it stood in flight to D and, without .rd, A's value in flight to DMR (R373). -/
theorem exec_setdmr_acts {s : State} {g : Guard} {e : Bool} {d a : Port} {rd : Bool} (h : Acts s (.setdmr g e d a rd)) :
    exec (.setdmr g e d a rd) s = .next (acted s (.setdmr g e d a rd) fun t =>
      let t' := t.launch .sy 7 1 0 (destWrs .sy e d s.ctx.dmr)
      if rd then t' else t'.launch .sy 7 1 0 [.dmr (s.ctx.val a)]) := by
  rw [exec_setdmr, execSetdmr, issue_acts _ _ _ _ h, acted, acted, issued_dmr, issued_val]
  rfl

/-! ## Landing -/

/-- A write under a mask takes the mask's bits from the new word and keeps the others. -/
theorem getLsbD_masked_write {n k : Nat} (old new mask : BitVec n) (hk : k < n) :
    ((old &&& ~~~mask) ||| (new &&& mask)).getLsbD k = if mask.getLsbD k then new.getLsbD k else old.getLsbD k := by
  simp only [BitVec.getLsbD_or, BitVec.getLsbD_and, BitVec.getLsbD_not, hk, decide_true, Bool.true_and]
  cases mask.getLsbD k <;> simp

/-- The fields of DMR that SETDMR writes: COL in bits 15 to 0 and EN in bits 41 to 38 (R373). -/
theorem getLsbD_en_col {k : Nat} (hk : k < 64) :
    (0x3C00000FFFF#64).getLsbD k = true ↔ k < 16 ∨ (38 ≤ k ∧ k < 42) := by
  revert k; decide

/-- DMR's write is a change of the core's DMR alone, in EN and COL (R373). -/
theorem landWr_dmr (c : Nat) (f : Flight) (s : State) (v : Word) : landWr c f s (.dmr v) =
    s.modCtx c fun x => { x with dmr := (x.dmr &&& ~~~0x3C00000FFFF#64) ||| (v &&& 0x3C00000FFFF#64) } := rfl

/-- Settles O34: what is in flight from the issue of either form, the fields written from the mask of the landing. -/
theorem setdmrResult : Obligations.SetdmrResult := by
  unfold Obligations.SetdmrResult
  intro s g e d a
  refine ⟨exec_setdmr_acts, exec_setdmr_acts, fun c f v hc k hk => ?_⟩
  rw [landWr_dmr, State.core_modCtx, if_pos ⟨rfl, hc⟩, getLsbD_masked_write _ _ _ hk]
  by_cases h : k < 16 ∨ (38 ≤ k ∧ k < 42)
  · rw [if_pos ((getLsbD_en_col hk).mpr h), if_pos h]
  · rw [if_neg (mt (getLsbD_en_col hk).mp h), if_neg h]

end Sys2Proof.Machine
end
